-- ==== Sys2Proof/Word.lean ====
section
/-! DEFINITION. The widths of the block (00_scope R9, R12, R13): bytes, 12-bit intensities, the stimulus word, the three
channels and the per-channel arrays. -/

namespace Sys2Proof

/-- `u8`: a raw command byte, a duty value, the counter (R12). -/
abbrev Byte := BitVec 8

/-- `u12`: a target intensity and a word of the gamma ROM (R9 `TI_W`, R115). -/
abbrev Intensity := BitVec 12

/-- The quantizer's untruncated output, 0..256, which needs 9 bits (R84, R145). -/
abbrev QuantOut := BitVec 9

/-- A 32-bit stimulus word (R82). -/
abbrev StimWord := BitVec 32

/-- The three channels, in the order R = 0, G = 1, B = 2 (R13, R20). -/
inductive Channel where
  | r
  | g
  | b
deriving DecidableEq, Repr

/-- The channel a loop `for ch in 0..2` visits next (R14, R63). -/
def Channel.succ : Channel → Option Channel
  | .r => some .g
  | .g => some .b
  | .b => none

/-- The index of a channel (R13). -/
def Channel.index : Channel → Nat
  | .r => 0
  | .g => 1
  | .b => 2

/-- A register array `X[0..2]`: three independent elements (R20). -/
structure PerCh (α : Type) where
  r : α
  g : α
  b : α
deriving DecidableEq, Repr, Inhabited

/-- `X[ch]` (R14). -/
def PerCh.get {α : Type} (x : PerCh α) : Channel → α
  | .r => x.r
  | .g => x.g
  | .b => x.b

/-- `X[ch] <- v` (R14): the other two elements keep their values (R20). -/
def PerCh.set {α : Type} (x : PerCh α) (ch : Channel) (v : α) : PerCh α :=
  match ch with
  | .r => { x with r := v }
  | .g => { x with g := v }
  | .b => { x with b := v }

/-- The array whose element `ch` is `f ch`. -/
def PerCh.ofFn {α : Type} (f : Channel → α) : PerCh α := ⟨f .r, f .g, f .b⟩

/-- The array with one value in all three elements. -/
def PerCh.all {α : Type} (v : α) : PerCh α := ⟨v, v, v⟩

/-- The logical state of a channel output (R14, R28). -/
inductive Switch where
  | off
  | on
deriving DecidableEq, Repr, Inhabited

end Sys2Proof
end

