-- ==== Sys2Proof/Config.lean ====
section
/-! DEFINITION. The implementation parameters of 00_scope R9 and R10 as plain data, and the three free values for which the
spec gives none (opaque, without a body). -/

namespace Sys2Proof

/-- The granularity of operations (R64): every operation one step, or the micro-steps of R63. -/
inductive Sched where
  | atomic
  | preemptive
deriving DecidableEq, Repr

/-- The parameters a model takes as arguments (R10, and the closing list of 92_eei_decisions).
`FAST_PERIOD` and `SLOW_PERIOD` have no counterpart: the model has no time (R242, log 13). -/
structure Config where
  /-- `SCHED` (R64). -/
  sched : Sched
  /-- The gamma ROM, 256 words of 12 bits (R29, R50). -/
  gamma : Vector Intensity 256
  /-- `CNT_RESET` (R35). -/
  cntReset : Byte
  /-- `TI_RESET[3]` (R35). -/
  tiReset : PerCh Intensity
  /-- `PEND_RESET[3]` (R35). -/
  pendReset : PerCh Byte
  /-- `ACT_RESET[3]` (R35). -/
  actReset : PerCh Byte
  /-- `UPD_RESET` (R35). -/
  updReset : Bool
  /-- `OUT_RESET[3]` (R35). -/
  outReset : PerCh Switch
  /-- `ON_LEVEL[3]`: is the line of the channel electrically high when the channel is on (R135). -/
  onLevel : PerCh Bool
  /-- `TIMEOUT_TICKS`, in slow ticks (R174). -/
  timeoutTicks : Nat
  /-- `ERR_W`, the width in bits of the signed error accumulators (R22, D8). -/
  errW : Nat
  /-- `IDLE_W`, the width in bits of the idle timer (R187, D16). -/
  idleW : Nat
  /-- `QCAP`, the capacity of the InboundQueue in bytes; `none` is unbounded (R170). -/
  qcap : Option Nat
deriving DecidableEq, Repr

/-- The idle timer wraps at `2^IDLE_W` (R187). -/
def Config.idleMod (c : Config) : Nat := 2 ^ c.idleW

/-- FREE VALUE: the contents of the gamma table, which no source gives (R113, D12, log 2). -/
opaque Config.gammaTable : Vector Intensity 256

/-- FREE VALUE: `TIMEOUT_TICKS` less one; the threshold lies in 1..255, the range at `IDLE_W` = 8
(R174, D16, log 3). -/
opaque Config.timeoutPred : Fin 255

/-- FREE VALUE: the electrical level of "on" per channel (R135, D13, log 4). -/
opaque Config.onLevels : PerCh Bool

/-- The configuration the machine is reset into: the defaults of R10 and R35, free values where R10 says OPEN. -/
def Config.build : Config where
  sched := .atomic
  gamma := Config.gammaTable
  cntReset := 0
  tiReset := PerCh.all 0
  pendReset := PerCh.all 0
  actReset := PerCh.all 0
  updReset := false
  outReset := PerCh.all .off
  onLevel := Config.onLevels
  timeoutTicks := Config.timeoutPred.val + 1
  errW := 8
  idleW := 8
  qcap := none

end Sys2Proof
end

