-- ==== Sys2Proof/Syntax.lean ====
section
/-! DEFINITION. The six operations of the block and its reference environment (30_encoding R83, opcode_table.json). -/

namespace Sys2Proof

/-- The operations: what the block does in answer to one event (R15). One constructor per row of opcode_table.json. -/
inductive Instr where
  /-- `FTICK`: one fast tick of the Duty-Cycle Generator (R120). -/
  | ftick
  /-- `STICK`: one slow tick, the Dither Quantizer (R140) and then the Timeout Guard (R174). -/
  | stick
  /-- `CMD r, g, b`: apply one command message (R160). -/
  | cmd (r g b : Byte)
  /-- `ENQ x`: one byte arrives from the bus (R171). -/
  | enq (x : Byte)
  /-- `BGPOLL`: one iteration of the background loop (R172). -/
  | bgpoll
  /-- `RESET` (R220). -/
  | reset
deriving DecidableEq, Repr

end Sys2Proof
end

