-- ==== Sys2Proof/WellFormed.lean ====
section
/-! DEFINITION. Well-formed operations and configurations. -/

namespace Sys2Proof

/-- Every operation is well-formed: all 256 values of each raw byte are legal (R86), and every one of the 2^24 byte triples
is a legal message (R80). The operands' range 0..255 is their type; an operand outside it is refused where it can be written,
in the trace assembly (`Stmt.wf`, R88). -/
def Instr.wf : Instr → Bool
  | .ftick => true
  | .stick => true
  | .cmd _ _ _ => true
  | .enq _ => true
  | .bgpoll => true
  | .reset => true

/-- `TIMEOUT_TICKS` lies in 1..2^`IDLE_W` − 1 (R174). -/
def Config.timeoutOk (c : Config) : Bool :=
  decide (1 ≤ c.timeoutTicks) && decide (c.timeoutTicks ≤ c.idleMod - 1)

/-- A bounded queue holds at least one whole message (R10: `QCAP` ≥ 3). -/
def Config.qcapOk (c : Config) : Bool :=
  match c.qcap with
  | none => true
  | some n => decide (3 ≤ n)

/-- The accumulators are wide enough for the error bound (R10: `ERR_W` ≥ 6; R145). -/
def Config.errWOk (c : Config) : Bool := decide (6 ≤ c.errW)

/-- A configuration within the ranges of R10. -/
def Config.wf (c : Config) : Bool := c.timeoutOk && c.qcapOk && c.errWOk

end Sys2Proof
end

