-- ==== Sys2Proof/Decode.lean ====
section
/-! DEFINITION. The decoder of the stimulus word (30_encoding R82, R83, R85), total on any bytes and rejecting by name, and
the encoder beside it, written from the same operation map. -/

namespace Sys2Proof

/-- Why bytes are no operation (R85). -/
inductive DecodeError where
  /-- `OP` is 0x00 or 0x07..0xFF: no row of R83 (R85). -/
  | reservedOp (w : StimWord)
  /-- A must-be-zero bit of `ARG` is set (R85). -/
  | nonZeroArg (w : StimWord)
  /-- Fewer than the four bytes of a word are left (R82: one length; log 9). -/
  | truncated
deriving DecidableEq, Repr

/-- `OP`, bits 31:24 (R82). -/
def wordOp (w : StimWord) : Byte := w.extractLsb' 24 8

/-- `ARG[23:16]`, the `r` of a `CMD` (R83, R84). -/
def wordArgHi (w : StimWord) : Byte := w.extractLsb' 16 8

/-- `ARG[15:8]`, the `g` of a `CMD` (R83, R84). -/
def wordArgMid (w : StimWord) : Byte := w.extractLsb' 8 8

/-- `ARG[7:0]`, the `b` of a `CMD` and the byte of an `ENQ` (R83, R84). -/
def wordArgLo (w : StimWord) : Byte := w.extractLsb' 0 8

/-- The operation of a word whose `ARG` must be zero (R83). -/
def needZeroArg (w : StimWord) (i : Instr) : Except DecodeError Instr :=
  if wordArgHi w = 0 ∧ wordArgMid w = 0 ∧ wordArgLo w = 0 then .ok i else .error (.nonZeroArg w)

/-- The operation map of R83. -/
def decodeWord (w : StimWord) : Except DecodeError Instr :=
  if wordOp w = 0x01 then needZeroArg w .ftick
  else if wordOp w = 0x02 then needZeroArg w .stick
  else if wordOp w = 0x03 then .ok (.cmd (wordArgHi w) (wordArgMid w) (wordArgLo w))
  else if wordOp w = 0x04 then
    if wordArgHi w = 0 ∧ wordArgMid w = 0 then .ok (.enq (wordArgLo w)) else .error (.nonZeroArg w)
  else if wordOp w = 0x05 then needZeroArg w .bgpoll
  else if wordOp w = 0x06 then needZeroArg w .reset
  else .error (.reservedOp w)

/-- The word of four bytes in stream order, most significant first (R82). -/
def wordOfBytes (b3 b2 b1 b0 : Byte) : StimWord := b3 ++ b2 ++ b1 ++ b0

/-- The four bytes of a word in stream order, most significant first (R82). -/
def bytesOfWord (w : StimWord) : List Byte := [wordOp w, wordArgHi w, wordArgMid w, wordArgLo w]

/-- Reads one operation from the front of a byte stream and answers it with the rest of the stream. -/
def decode : List Byte → Except DecodeError (Instr × List Byte)
  | b3 :: b2 :: b1 :: b0 :: rest =>
    match decodeWord (wordOfBytes b3 b2 b1 b0) with
    | .ok i => .ok (i, rest)
    | .error e => .error e
  | _ => .error .truncated

/-- The stimulus word of an operation (R83). -/
def encodeWord : Instr → StimWord
  | .ftick => wordOfBytes 0x01 0 0 0
  | .stick => wordOfBytes 0x02 0 0 0
  | .cmd r g b => wordOfBytes 0x03 r g b
  | .enq x => wordOfBytes 0x04 0 0 x
  | .bgpoll => wordOfBytes 0x05 0 0 0
  | .reset => wordOfBytes 0x06 0 0 0

/-- The bytes of an operation in a trace (R82). -/
def encode (i : Instr) : List Byte := bytesOfWord (encodeWord i)

/-- One row of R83: a word `w` spells it when `w AND mask = match`. -/
structure OpRow where
  mnemonic : String
  matchBits : StimWord
  maskBits : StimWord
deriving DecidableEq, Repr

/-- The operation map of R83, its match and mask columns as the spec prints them. -/
def opTable : List OpRow :=
  [ ⟨"FTICK", 0x01000000, 0xFFFFFFFF⟩,
    ⟨"STICK", 0x02000000, 0xFFFFFFFF⟩,
    ⟨"CMD", 0x03000000, 0xFF000000⟩,
    ⟨"ENQ", 0x04000000, 0xFFFFFF00⟩,
    ⟨"BGPOLL", 0x05000000, 0xFFFFFFFF⟩,
    ⟨"RESET", 0x06000000, 0xFFFFFFFF⟩ ]

/-- Does a word spell the operation of a row (R83). -/
def OpRow.spells (row : OpRow) (w : StimWord) : Bool := decide (w &&& row.maskBits = row.matchBits)

/-- The mnemonic of an operation (R83). -/
def Instr.mnemonic : Instr → String
  | .ftick => "FTICK"
  | .stick => "STICK"
  | .cmd _ _ _ => "CMD"
  | .enq _ => "ENQ"
  | .bgpoll => "BGPOLL"
  | .reset => "RESET"

/-- The first `nbits` bits of a word numbered as opcode_table.json numbers them, the bits above them zero: one 32-bit word. -/
def tableWord (nbits w : Nat) : StimWord := BitVec.ofNat 32 (w % 2 ^ nbits)

/-- What the decoder reads from the word `w` of a table row of `nbits` bits, laid out as R82 stores it. -/
def decodeTableWord (nbits w : Nat) : Option Instr :=
  match decode (bytesOfWord (tableWord nbits w)) with
  | .ok (i, _) => some i
  | .error _ => none

end Sys2Proof
end

