-- ==== Sys2Proof/Machine/State.lean ====
section
/-! DEFINITION. The state of the block and its reference environment (10_state R20 to R35), plain data, the reasons a step
can stop, and the state after reset. -/

namespace Sys2Proof.Machine

open Sys2Proof

/-- The faults of the machine: none. The block raises no exception, no fault and no trap in any state for any input (R190),
and a step of the model has no fault outcome (R203). Raised by nobody; that the type is empty is the spec's own rule. -/
inductive Fault where
deriving DecidableEq, Repr

/-- Why the model declines to give an event a meaning (R203). Every one errs toward unprovable: safe. -/
inductive Refusal where
  /-- An operation without a meaning yet. Raised by `exec`'s refused arms only; there is none. Safe. -/
  | notModelled (mnemonic : String)
  /-- A stimulus word that spells no operation, at this position of the trace (R85). Raised by `step`. Safe. -/
  | invalidWord (position : Nat) (why : DecodeError)
  /-- `ENQ` at a full bounded queue (R171, U7). Raised by `ENQ`. Safe. -/
  | queueFull
  /-- A second `STICK` while one is in progress (R198, U6). Raised by `STICK`. Safe. -/
  | slowOverrun
  /-- A second `CMD` or `BGPOLL` while one is in progress (R198, U6). Raised by `CMD` and `BGPOLL`. Safe. -/
  | backgroundOverrun
deriving DecidableEq, Repr

/-- Which micro-step of a `STICK` in progress comes next, with the values already read or computed (R33, R63). -/
inductive SlowPos where
  /-- `s0a`: test the flag. -/
  | test
  /-- `s0b`: clear the flag if the tested value `u` was 1, else go on to the guard. -/
  | clear (u : Bool)
  /-- `s1` of channel `ch`: read `TI[ch]`. -/
  | read (ch : Channel)
  /-- `s2` of channel `ch`: `t` has been read; write `PEND[ch]`. -/
  | write (ch : Channel) (t : Intensity)
  /-- `s3` of channel `ch`: `t` has been read and `out` written; update `ERR[ch]`. -/
  | update (ch : Channel) (t : Intensity) (out : QuantOut)
  /-- `g`: the Timeout Guard. -/
  | guard
deriving DecidableEq, Repr

/-- Which micro-step of a `CMD` or `BGPOLL` in progress comes next, with the values already read (R33, R63). -/
inductive BgPos where
  /-- `b0` of a `BGPOLL`: test the queue's length and dequeue. -/
  | poll
  /-- `c0`: look the three raw bytes up. -/
  | lookup (r g b : Byte)
  /-- `c1`, `c2` or `c3`: write the looked-up word of channel `ch` to `TI[ch]`. -/
  | store (ch : Channel) (v : PerCh Intensity)
deriving DecidableEq, Repr

/-- The whole state: the block (R21 to R28), the reference environment (R32), the operations in progress (R33), and the
model's own fields (the configuration and the part of the trace not yet read, log 1, log 6, log 7). -/
structure State where
  /-- `TI[ch]`, target intensities (R21). -/
  ti : PerCh Intensity
  /-- `ERR[ch]`, signed error accumulators, `cfg.errW` bits wide, held as their values (R22, log 10). -/
  err : PerCh Int
  /-- `PEND[ch]`, pending duty values (R23). -/
  pend : PerCh Byte
  /-- `ACT[ch]`, active duty values (R24). -/
  act : PerCh Byte
  /-- `CNT`, the PWM counter (R26). -/
  cnt : Byte
  /-- `UPD`, the "update needed" flag (R27). -/
  upd : Bool
  /-- `OUT[ch]`, the channel outputs (R28). -/
  out : PerCh Switch
  /-- `Q`, the InboundQueue, oldest byte first (R32, R170). -/
  q : List Byte
  /-- `IDLE_T`, the Timeout Guard's idle timer, unsigned, `cfg.idleW` bits wide, held as its value (R32, R187, log 10). -/
  idleT : Nat
  /-- `LASTCNT`, the queue length the Guard saw at the previous slow tick (R32). -/
  lastCnt : Nat
  /-- The `STICK` in progress (R33). -/
  slow : Option SlowPos
  /-- The `CMD` or `BGPOLL` in progress (R33). -/
  bg : Option BgPos
  /-- The configuration: constants that no operation writes (R10, log 1). -/
  cfg : Config
  /-- The model's own: the bytes of the trace not yet read (R82, R90, log 6). -/
  trace : List Byte
  /-- The model's own: how many words of the trace have been read (R85, log 6). -/
  pos : Nat
  /-- The model's own: for the next events of the trace, how many micro-steps of the work in progress still run before each
  arrives; an event beyond the list arrives when nothing is in progress (R90, log 7). -/
  gaps : List Nat
deriving DecidableEq, Repr

/-- The machine right after reset (R35, R220): every register at its reset value, nothing in progress, no trace loaded. -/
def State.reset : State where
  ti := Config.build.tiReset
  err := PerCh.all 0
  pend := Config.build.pendReset
  act := Config.build.actReset
  cnt := Config.build.cntReset
  upd := Config.build.updReset
  out := Config.build.outReset
  q := []
  idleT := 0
  lastCnt := 0
  slow := none
  bg := none
  cfg := Config.build
  trace := []
  pos := 0
  gaps := []

end Sys2Proof.Machine
end

