-- ==== Sys2Proof/Machine/Ops.lean ====
section
/-! DEFINITION. The named operations over the registers, the gamma ROM, the queue and the operations in progress. Nothing
else reads or writes the state. The block raises no exception (R190), so there is no exception entry and no return; what it
has in their place is the suspension of an operation in progress (R195), `State.setSlow` and `State.setBg`. -/

namespace Sys2Proof.Machine

open Sys2Proof

/-! Whole-register writes (R54): one update per register. -/

def State.setTi (s : State) (v : PerCh Intensity) : State := { s with ti := v }

def State.setErr (s : State) (v : PerCh Int) : State := { s with err := v }

def State.setPend (s : State) (v : PerCh Byte) : State := { s with pend := v }

def State.setAct (s : State) (v : PerCh Byte) : State := { s with act := v }

def State.setCnt (s : State) (v : Byte) : State := { s with cnt := v }

def State.setUpd (s : State) (v : Bool) : State := { s with upd := v }

def State.setOut (s : State) (v : PerCh Switch) : State := { s with out := v }

def State.setQ (s : State) (v : List Byte) : State := { s with q := v }

def State.setIdleT (s : State) (v : Nat) : State := { s with idleT := v }

def State.setLastCnt (s : State) (v : Nat) : State := { s with lastCnt := v }

def State.setSlow (s : State) (v : Option SlowPos) : State := { s with slow := v }

def State.setBg (s : State) (v : Option BgPos) : State := { s with bg := v }

def State.setTrace (s : State) (v : List Byte) : State := { s with trace := v }

def State.setPos (s : State) (v : Nat) : State := { s with pos := v }

def State.setGaps (s : State) (v : List Nat) : State := { s with gaps := v }

/-! The one memory read (R51). -/

/-- `GAMMA[v]`: the 12-bit word at index `v`. Every index is in range (R51), and no operation writes the ROM (R62). -/
def State.memReadGamma (s : State) (v : Byte) : Intensity := s.cfg.gamma[v.toNat]'v.isLt

/-- The three words `(GAMMA[r], GAMMA[g], GAMMA[b])` of a message (R63 `c0`). -/
def State.lookupMessage (s : State) (r g b : Byte) : PerCh Intensity :=
  ⟨s.memReadGamma r, s.memReadGamma g, s.memReadGamma b⟩

/-! The primitives of the queue (R170). `DEQ()` is not exposed by itself (R177). -/

/-- `QLEN()`: the exact number of buffered bytes. -/
def State.qlen (s : State) : Nat := s.q.length

/-- `ENQ(b)`: append at the tail. -/
def State.appendByte (s : State) (x : Byte) : State := s.setQ (s.q ++ [x])

/-- `FLUSH()`: discard every byte. -/
def State.flush (s : State) : State := s.setQ []

/-- Is the queue bounded and full (R171). -/
def State.queueFull (s : State) : Bool :=
  match s.cfg.qcap with
  | none => false
  | some n => decide (n ≤ s.qlen)

/-! Operations in progress (R33). -/

/-- Is an operation in progress, running or suspended. -/
def State.busy (s : State) : Bool := s.slow.isSome || s.bg.isSome

/-- No operation is in progress (R245 (b)). -/
def State.quiet (s : State) : Bool := !s.busy

/-! Reset (R220). -/

/-- The data registers at their reset values (R35). -/
def State.resetRegs (s : State) : State :=
  ((((s.setErr (PerCh.all 0)).setTi s.cfg.tiReset).setPend s.cfg.pendReset).setAct s.cfg.actReset).setOut s.cfg.outReset

/-- The counter and the flag at their reset values (R35). -/
def State.resetControl (s : State) : State := (s.setCnt s.cfg.cntReset).setUpd s.cfg.updReset

/-- Every suspended operation discarded (R195, R220). -/
def State.discardSuspended (s : State) : State := (s.setSlow none).setBg none

/-- The environment emptied (R186). -/
def State.resetEnv (s : State) : State := ((s.setQ []).setIdleT 0).setLastCnt 0

/-- The whole of R220: all of the state, none of the configuration. -/
def State.applyReset (s : State) : State := s.resetRegs.resetControl.discardSuspended.resetEnv

/-! What is visible at the interface (R81, R135). -/

/-- `out[2:0]`: bit `ch` is `OUT[ch]`, 1 = on (R81). -/
def State.outPort (s : State) : BitVec 3 :=
  BitVec.ofBool (s.out.b = .on) ++ BitVec.ofBool (s.out.g = .on) ++ BitVec.ofBool (s.out.r = .on)

/-- Is the physical line of a channel electrically high: `ON_LEVEL[ch]` while on, the other level while off (R135). -/
def State.lineHigh (s : State) (ch : Channel) : Bool :=
  match s.out.get ch with
  | .on => s.cfg.onLevel.get ch
  | .off => !s.cfg.onLevel.get ch

end Sys2Proof.Machine
end

