-- ==== Sys2Proof/Machine/Operands.lean ====
section
/-! DEFINITION. How every intermediate value is formed (30_encoding R84, 42_quantizer R141 to R145): exact integers, narrowed
only where a rule writes them to state (R12). -/

namespace Sys2Proof.Machine

open Sys2Proof

/-- `(CNT + 1) mod 256`: the wrap from 255 to 0 is the cycle boundary (R26, R121). -/
def nextCount (c : Byte) : Byte := BitVec.ofNat 8 ((c.toNat + 1) % 256)

/-- `floor_value` = `TI[ch] >> 4`, 0..255 (R141). -/
def floorValue (t : Intensity) : Nat := t.toNat >>> 4

/-- `rem` = `TI[ch][3:0]` (R141). -/
def remValue (t : Intensity) : Nat := t.toNat % 16

/-- `out << 4` on integers, 0..4096 (R144, R145). -/
def outScaled (out : QuantOut) : Nat := out.toNat <<< 4

/-- `trunc_8(out)`: the low 8 bits, so that 256 is stored as 0 (R143; conflict C2, log 16). -/
def pendOf (out : QuantOut) : Byte := BitVec.ofNat 8 out.toNat

/-- What `w` bits of two's complement hold of an exact sum: the value of −2^(w−1)..2^(w−1)−1 with the same low `w` bits (R12,
R22). -/
def narrowErr (w : Nat) (v : Int) : Int := v.bmod (2 ^ w)

/-- `ERR[ch] + TI[ch] − (out << 4)`, the untruncated `out`, the sum exact and then stored in `ERR_W` = `w` bits (R144). -/
def errOf (w : Nat) (e : Int) (t : Intensity) (out : QuantOut) : Int :=
  narrowErr w (e + (t.toNat : Int) - (outScaled out : Int))

/-- `(IDLE_T + 1) mod 2^IDLE_W` (R174, R187). -/
def nextIdle (c : Config) (n : Nat) : Nat := (n + 1) % c.idleMod

end Sys2Proof.Machine
end

