-- ==== Sys2Proof/Machine/Flags.lean ====
section
/-! DEFINITION. The tests and the one flag of the block: the sign test of the round decision (R142), the compare of the
generator (R123), the boundary test (R121), and setting and taking `UPD` (20_memory R60). There are no condition codes (R27). -/

namespace Sys2Proof.Machine

open Sys2Proof

/-- The round decision: the accumulator, read as a signed integer, is not negative; zero counts as non-negative (R142). -/
def roundsUp (e : Int) : Bool := decide (0 ≤ e)

/-- `out`: `floor_value + 1` when the accumulator is not negative, `floor_value` when it is (R142). -/
def quantOut (e : Int) (t : Intensity) : QuantOut :=
  BitVec.ofNat 9 (if roundsUp e then floorValue t + 1 else floorValue t)

/-- `ACT[ch] = CNT`: equality of two unsigned bytes (R123). -/
def compareMatch (s : State) (ch : Channel) : Bool := decide (s.act.get ch = s.cnt)

/-- The cycle boundary: the incremented count is 0 (R121). -/
def atBoundary (s : State) : Bool := decide (s.cnt = 0)

/-- Set the flag, whatever it was: a single slot, not a queue (R60, R128). -/
def raiseUpd (s : State) : State := s.setUpd true

/-- Clear the flag (R60). -/
def clearUpd (s : State) : State := s.setUpd false

end Sys2Proof.Machine
end

