-- ==== Sys2Proof/Machine/Command.lean ====
section
/-! DEFINITION. The command port: `CMD` (43_command R160 to R166). -/

namespace Sys2Proof.Machine

open Sys2Proof

/-- All three targets written with the looked-up words as they are: no validation, no clamp (R160, R161, R162). -/
def applyMessage (r g b : Byte) (s : State) : State := s.setTi (s.lookupMessage r g b)

/-- The meaning of `CMD r, g, b` (R160). Under `atomic` it is one step; under `preemptive` it starts, and its micro-steps
follow (R63, `microStep`). A second background operation while one is in progress is refused (R198). -/
def execCmd (r g b : Byte) (s : State) : Host.Outcome State Fault Refusal :=
  match s.bg with
  | some _ => .refused .backgroundOverrun
  | none =>
    match s.cfg.sched with
    | .atomic => .next (applyMessage r g b s)
    | .preemptive => .next (s.setBg (some (.lookup r g b)))

end Sys2Proof.Machine
end

