-- ==== Sys2Proof/Machine/Environment.lean ====
section
/-! DEFINITION. The reference environment's own operations: `ENQ` and `BGPOLL` (44_environment R170 to R178). -/

namespace Sys2Proof.Machine

open Sys2Proof

/-- The meaning of `ENQ x` (R171): one indivisible step under both values of `SCHED`; an arrival at a full bounded queue is
refused. -/
def execEnq (x : Byte) (s : State) : Host.Outcome State Fault Refusal :=
  if s.queueFull then .refused .queueFull else .next (s.appendByte x)

/-- The atomic dequeue of a whole message, which also clears the idle timer: the rest of the queue stays (R172). -/
def takeMessage (rest : List Byte) (s : State) : State := (s.setQ rest).setIdleT 0

/-- One iteration of the background loop performed whole: with at least three bytes the oldest three are a message, R first;
with fewer nothing happens and the bytes stay (R172). -/
def pollOnce (s : State) : State :=
  match s.q with
  | r :: g :: b :: rest => applyMessage r g b (takeMessage rest s)
  | _ => s

/-- The meaning of `BGPOLL` (R172). Under `atomic` it is one step; under `preemptive` it starts, and its micro-steps follow
(R63, `microStep`). A second background operation while one is in progress is refused (R198). -/
def execBgpoll (s : State) : Host.Outcome State Fault Refusal :=
  match s.bg with
  | some _ => .refused .backgroundOverrun
  | none =>
    match s.cfg.sched with
    | .atomic => .next (pollOnce s)
    | .preemptive => .next (s.setBg (some .poll))

end Sys2Proof.Machine
end

