-- ==== Sys2Proof/Machine/Generator.lean ====
section
/-! DEFINITION. The Duty-Cycle Generator: `FTICK` (41_generator R120 to R135). -/

namespace Sys2Proof.Machine

open Sys2Proof

/-- The counter is incremented first (R121). -/
def advanceCount (s : State) : State := s.setCnt (nextCount s.cnt)

/-- The three actions of a cycle boundary in the source's order: all channels on, Pending copied to Active, the flag set
(R122; a copy and not an exchange, conflict C1). -/
def startCycle (s : State) : State := raiseUpd ((s.setOut (PerCh.all .on)).setAct s.pend)

/-- The boundary actions when the incremented count is 0, and nothing otherwise (R122). -/
def boundaryActions (s : State) : State := if atBoundary s then startCycle s else s

/-- The compare of every tick: a channel whose active value equals the count goes off, any other is left as it was (R123). -/
def compareChannels (s : State) : State :=
  s.setOut (PerCh.ofFn fun ch => if compareMatch s ch then .off else s.out.get ch)

/-- One fast tick, one indivisible step under both values of `SCHED` (R120). -/
def fastTick (s : State) : State := compareChannels (boundaryActions (advanceCount s))

/-- The meaning of `FTICK` (R120): never interrupted, no exception (R194). -/
def execFtick (s : State) : Host.Outcome State Fault Refusal := .next (fastTick s)

end Sys2Proof.Machine
end

