-- ==== Sys2Proof/Machine/Guard.lean ====
section
/-! DEFINITION. The Timeout Guard, the second half of every `STICK` (44_environment R173 to R176, R187). -/

namespace Sys2Proof.Machine

open Sys2Proof

/-- Idle: the queue is empty; the timer and `LASTCNT` are held at 0 (R174). -/
def guardIdle (s : State) : State := (s.setIdleT 0).setLastCnt 0

/-- Growth clears the idle timer; a slow tick without growth advances it (R174). -/
def guardTimer (s : State) : Nat := if s.lastCnt < s.qlen then 0 else nextIdle s.cfg s.idleT

/-- The idle timer has reached the threshold (R174). -/
def guardExpired (s : State) : Bool := decide (s.cfg.timeoutTicks ≤ s.idleT)

/-- Accumulating: the queue is not empty, with 3 or more bytes as well (R173; conflict C5): time it, remember its length. -/
def guardCount (s : State) : State := (s.setIdleT (guardTimer s)).setLastCnt s.qlen

/-- The side effect Flush: all bytes discarded, then Idle (R174). -/
def guardFlush (s : State) : State := guardIdle s.flush

/-- `GUARD` (R174), one micro-step. -/
def guardStep (s : State) : State :=
  if s.qlen = 0 then guardIdle s
  else if guardExpired (guardCount s) then guardFlush (guardCount s)
  else guardCount s

end Sys2Proof.Machine
end

