-- ==== Sys2Proof/Machine/Quantizer.lean ====
section
/-! DEFINITION. The Dither Quantizer and the slow tick: `STICK` (42_quantizer R140 to R159), followed by the Timeout Guard
(R174, R185). -/

namespace Sys2Proof.Machine

open Sys2Proof

/-- `PEND[ch] <- trunc_8(out)` (R143, micro-step `s2`). -/
def writePend (ch : Channel) (out : QuantOut) (s : State) : State := s.setPend (s.pend.set ch (pendOf out))

/-- `ERR[ch] <- ERR[ch] + t − (out << 4)` (R144, micro-step `s3`). -/
def updateErr (ch : Channel) (t : Intensity) (out : QuantOut) (s : State) : State :=
  s.setErr (s.err.set ch (errOf s.cfg.errW (s.err.get ch) t out))

/-- One channel of a quantizer run: quantize, round and write, update the error (R140 to R144). -/
def quantizeChannel (ch : Channel) (s : State) : State :=
  let t := s.ti.get ch
  let out := quantOut (s.err.get ch) t
  updateErr ch t out (writePend ch out s)

/-- A quantizer run: the flag cleared on entry, then channels 0, 1, 2 (R140, D6). -/
def quantizerRun (s : State) : State :=
  quantizeChannel .b (quantizeChannel .g (quantizeChannel .r (clearUpd s)))

/-- The quantizer half of a slow tick: a run when the flag is set, nothing when it is clear (R140, R153). -/
def quantizer (s : State) : State := if s.upd then quantizerRun s else s

/-- One slow tick performed whole: the quantizer, then the guard (R140, R185). -/
def slowTick (s : State) : State := guardStep (quantizer s)

/-- The meaning of `STICK` (R140). Under `atomic` it is one step; under `preemptive` it starts, and its micro-steps follow
(R63, `microStep`). A second one while one is in progress is refused (R198). -/
def execStick (s : State) : Host.Outcome State Fault Refusal :=
  match s.slow with
  | some _ => .refused .slowOverrun
  | none =>
    match s.cfg.sched with
    | .atomic => .next (slowTick s)
    | .preemptive => .next (s.setSlow (some .test))

end Sys2Proof.Machine
end

