-- ==== Sys2Proof/Machine/System.lean ====
section
/-! DEFINITION. The one system-level operation: `RESET` (70_reset_and_hazards R220, R221). -/

namespace Sys2Proof.Machine

open Sys2Proof

/-- The meaning of `RESET` (R220): one indivisible step in any state. -/
def execReset (s : State) : Host.Outcome State Fault Refusal := .next s.applyReset

end Sys2Proof.Machine
end

