-- ==== Sys2Proof/Machine/Dispatch.lean ====
section
/-! DEFINITION. The one match from operations to meanings (30_encoding R90). -/

namespace Sys2Proof.Machine

open Sys2Proof

def exec (i : Instr) (s : State) : Host.Outcome State Fault Refusal :=
  match i with
  | .ftick => Sys2Proof.Machine.execFtick s
  | .stick => Sys2Proof.Machine.execStick s
  | .cmd r g b => Sys2Proof.Machine.execCmd r g b s
  | .enq x => Sys2Proof.Machine.execEnq x s
  | .bgpoll => Sys2Proof.Machine.execBgpoll s
  | .reset => Sys2Proof.Machine.execReset s

end Sys2Proof.Machine
end

