-- ==== Sys2Proof/Machine/Micro.lean ====
section
/-! DEFINITION. The micro-steps of operations in progress under `SCHED = preemptive` (20_memory R63, 60_exceptions R194 to
R196). -/

namespace Sys2Proof.Machine

open Sys2Proof

/-- Where a `STICK` goes after channel `ch`: the next channel, or the guard after the last (R63). -/
def slowAfter (ch : Channel) : SlowPos :=
  match ch.succ with
  | some c => .read c
  | none => .guard

/-- Where a command goes after its write to channel `ch`: the next channel, or to its end after the last (R63). -/
def bgAfter (ch : Channel) (v : PerCh Intensity) : Option BgPos :=
  match ch.succ with
  | some c => some (.store c v)
  | none => none

/-- One micro-step of a `STICK` (R63 `s0a`, `s0b`, `s1`, `s2`, `s3`, `g`). -/
def slowMicro (p : SlowPos) (s : State) : State :=
  match p with
  | .test => s.setSlow (some (.clear s.upd))
  | .clear true => (clearUpd s).setSlow (some (.read .r))
  | .clear false => s.setSlow (some .guard)
  | .read ch => s.setSlow (some (.write ch (s.ti.get ch)))
  | .write ch t =>
    let out := quantOut (s.err.get ch) t
    (writePend ch out s).setSlow (some (.update ch t out))
  | .update ch t out => (updateErr ch t out s).setSlow (some (slowAfter ch))
  | .guard => (guardStep s).setSlow none

/-- One micro-step of a `CMD` or `BGPOLL` (R63 `b0`, `c0`, `c1`, `c2`, `c3`). -/
def bgMicro (p : BgPos) (s : State) : State :=
  match p with
  | .poll =>
    match s.q with
    | r :: g :: b :: rest => (takeMessage rest s).setBg (some (.lookup r g b))
    | _ => s.setBg none
  | .lookup r g b => s.setBg (some (.store .r (s.lookupMessage r g b)))
  | .store ch v => (s.setTi (s.ti.set ch (v.get ch))).setBg (bgAfter ch v)

/-- One micro-step of the operation in progress of the highest priority: the slow task before the background loop (R194).
With nothing in progress there is none. -/
def microStep (s : State) : State :=
  match s.slow with
  | some p => slowMicro p s
  | none =>
    match s.bg with
    | some p => bgMicro p s
    | none => s

/-- `n` micro-steps with no event between them. -/
def microRun : Nat → State → State
  | 0, s => s
  | n + 1, s => microRun n (microStep s)

end Sys2Proof.Machine
end

