-- ==== Sys2Proof/Machine/Fetch.lean ====
section
/-! DEFINITION. Where the next event comes from: the trace (30_encoding R82, R90, R91), and the point at which it arrives. -/

namespace Sys2Proof.Machine

open Sys2Proof

/-- The next event arrives now: nothing is in progress, or the trace says that no more micro-steps run before it (R90). -/
def State.eventDue (s : State) : Bool := s.quiet || decide (s.gaps.head? = some 0)

/-- The step takes the next event of the trace: there is one, and it arrives now. -/
def State.takesEvent (s : State) : Bool := !s.trace.isEmpty && s.eventDue

/-- One micro-step less before the next event arrives. -/
def countGap : List Nat → List Nat
  | n :: gs => (n - 1) :: gs
  | [] => []

/-- The state when no event is taken: the operation in progress goes on by one micro-step; with none in progress nothing
changes, since an edge with no strobe changes nothing (R81). -/
def State.proceed (s : State) : State :=
  if s.busy then microStep (s.setGaps (countGap s.gaps)) else s

/-- The state an event taken from the trace acts on: the word read, its position counted, its arrival used up. -/
def State.consume (s : State) (rest : List Byte) : State :=
  ((s.setTrace rest).setPos (s.pos + 1)).setGaps s.gaps.tail

/-- The trace with the word of `nbits` bits `w` as its next word, in the place of the one that stood there. -/
def placeWord (nbits w : Nat) (trace : List Byte) : List Byte := bytesOfWord (tableWord nbits w) ++ trace.drop 4

/-- The arrivals with the next event arriving now, if it would not otherwise. -/
def State.dueGaps (s : State) : List Nat := if s.eventDue then s.gaps else 0 :: s.gaps.tail

end Sys2Proof.Machine
end

