-- ==== Sys2Proof/Machine/Step.lean ====
section
/-! DEFINITION. One step (30_encoding R90, 60_exceptions R203): take the next event of the trace if it arrives now and perform
its operation, else let the operation in progress go on by one micro-step. -/

namespace Sys2Proof.Machine

open Sys2Proof

/-- One step of the machine. An invalid word is refused at its position, never skipped (R85). -/
def step (s : State) : Host.Outcome State Fault Refusal :=
  if s.takesEvent then
    match decode s.trace with
    | .ok (i, rest) => exec i (s.consume rest)
    | .error e => .refused (.invalidWord s.pos e)
  else .next s.proceed

/-- `s` with the word `w` of `nbits` bits as the next word of its trace, arriving now, so that the next step runs it. -/
def State.withFetchWord (s : State) (nbits w : Nat) : State :=
  (s.setTrace (placeWord nbits w s.trace)).setGaps s.dueGaps

end Sys2Proof.Machine
end

