-- ==== Sys2Proof/Machine/Assembly.lean ====
section
/-! DEFINITION. The trace assembly and its pseudo-operations (30_encoding R88, R89): statements, their expansion into
operations, and the text of one line. -/

namespace Sys2Proof.Machine

open Sys2Proof

/-- One statement of the trace assembly, its numbers as written (R88, R89). A plain `FTICK`, `STICK` or `FRAME` is the one
with count 1. -/
inductive Stmt where
  | ftick (n : Nat)
  | stick (n : Nat)
  | cmd (r g b : Nat)
  | enq (x : Nat)
  | bgpoll
  | reset
  | cycle
  | frame (n : Nat)
  | msg (r g b : Nat)
deriving DecidableEq, Repr

/-- A number that an operand may be: 0..255 (R88). -/
def operandOk (n : Nat) : Bool := decide (n ≤ 255)

/-- A statement without an assembly error: operands 0..255 (R88), counts at least 1 (R89). -/
def Stmt.wf : Stmt → Bool
  | .ftick n => decide (1 ≤ n)
  | .stick n => decide (1 ≤ n)
  | .cmd r g b => operandOk r && operandOk g && operandOk b
  | .enq x => operandOk x
  | .bgpoll => true
  | .reset => true
  | .cycle => true
  | .frame n => decide (1 ≤ n)
  | .msg r g b => operandOk r && operandOk g && operandOk b

/-- `FRAME`: one full PWM cycle followed by one slow tick (R89). -/
def frameOps : List Instr := List.replicate 256 .ftick ++ [.stick]

/-- The operations a well-formed statement stands for (R88, R89). -/
def Stmt.expansion : Stmt → List Instr
  | .ftick n => List.replicate n .ftick
  | .stick n => List.replicate n .stick
  | .cmd r g b => [.cmd (BitVec.ofNat 8 r) (BitVec.ofNat 8 g) (BitVec.ofNat 8 b)]
  | .enq x => [.enq (BitVec.ofNat 8 x)]
  | .bgpoll => [.bgpoll]
  | .reset => [.reset]
  | .cycle => List.replicate 256 .ftick
  | .frame n => (List.replicate n frameOps).flatten
  | .msg r g b => [.enq (BitVec.ofNat 8 r), .enq (BitVec.ofNat 8 g), .enq (BitVec.ofNat 8 b)]

/-- The operations of a statement, or none for an assembly error (R88). -/
def Stmt.expand (st : Stmt) : Option (List Instr) := if st.wf then some st.expansion else none

/-- The stimulus words of a statement as numbers, or none for an assembly error (R88). -/
def Stmt.words (st : Stmt) : Option (List Nat) := st.expand.map (List.map fun i => (encodeWord i).toNat)

/-- The byte stream of a sequence of operations (R82). -/
def traceBytes (is : List Instr) : List Byte := (is.map encode).flatten

/-- A trace placed in the machine from outside, nothing read of it yet (log 6). -/
def State.loadTrace (s : State) (is : List Instr) : State := (s.setTrace (traceBytes is)).setPos 0

/-! The text of one line (R88). Spaces and tabs separate a mnemonic from its operands and may surround an operand (log 23). -/

/-- A blank character. -/
def isBlank (c : Char) : Bool := c == ' ' || c == '\t'

/-- The line without the text from `;` to its end, and without blanks at either end (R88). -/
def stripLine (l : List Char) : List Char :=
  ((((l.takeWhile (fun c => c != ';')).dropWhile isBlank).reverse).dropWhile isBlank).reverse

/-- The characters between commas. -/
def splitCommas : List Char → List (List Char)
  | [] => [[]]
  | c :: cs =>
    match splitCommas cs with
    | [] => [[c]]
    | p :: ps => if c = ',' then [] :: p :: ps else (c :: p) :: ps

/-- The value of a digit in a base up to 16. -/
def digitOf (base : Nat) (c : Char) : Option Nat :=
  let n := c.toNat
  let v := if 48 ≤ n ∧ n ≤ 57 then n - 48
    else if 65 ≤ n ∧ n ≤ 70 then n - 55
    else if 97 ≤ n ∧ n ≤ 102 then n - 87
    else 16
  if v < base then some v else none

/-- The value of a string of digits that continues the value `acc`. -/
def digitsFrom (base acc : Nat) : List Char → Option Nat
  | [] => some acc
  | c :: cs =>
    match digitOf base c with
    | some d => digitsFrom base (acc * base + d) cs
    | none => none

/-- A number: decimal, or hexadecimal with `0x` (R88); at least one digit. -/
def parseNumber : List Char → Option Nat
  | '0' :: 'x' :: d :: ds => digitsFrom 16 0 (d :: ds)
  | d :: ds => digitsFrom 10 0 (d :: ds)
  | [] => none

/-- The numbers of an operand list; a blank list has none. -/
def parseOperands (l : List Char) : Option (List Nat) :=
  if l.isEmpty then some [] else (splitCommas l).mapM (fun p => parseNumber (stripLine p))

/-- The statement of a mnemonic, upper case, and its numbers (R88, R89). -/
def stmtOf (mnemonic : List Char) (ns : List Nat) : Option Stmt :=
  match ns with
  | [] =>
    if mnemonic = "FTICK".toList then some (.ftick 1)
    else if mnemonic = "STICK".toList then some (.stick 1)
    else if mnemonic = "BGPOLL".toList then some .bgpoll
    else if mnemonic = "RESET".toList then some .reset
    else if mnemonic = "CYCLE".toList then some .cycle
    else if mnemonic = "FRAME".toList then some (.frame 1)
    else none
  | [n] =>
    if mnemonic = "FTICK".toList then some (.ftick n)
    else if mnemonic = "STICK".toList then some (.stick n)
    else if mnemonic = "FRAME".toList then some (.frame n)
    else if mnemonic = "ENQ".toList then some (.enq n)
    else none
  | [r, g, b] =>
    if mnemonic = "CMD".toList then some (.cmd r g b)
    else if mnemonic = "MSG".toList then some (.msg r g b)
    else none
  | _ => none

/-- One line of the assembly: `some []` for a line with no statement, the operations of its statement, or none for an assembly
error (R88). -/
def assembleLine (line : List Char) : Option (List Instr) :=
  let l := stripLine line
  if l.isEmpty then some []
  else
    match parseOperands (stripLine (l.dropWhile (fun c => !isBlank c))) with
    | some ns =>
      match stmtOf (l.takeWhile (fun c => !isBlank c)) ns with
      | some st => st.expand
      | none => none
    | none => none

/-- A program: its lines in order, none if any is an assembly error (R88). -/
def assembleLines : List (List Char) → Option (List Instr)
  | [] => some []
  | l :: ls =>
    match assembleLine l, assembleLines ls with
    | some is, some js => some (is ++ js)
    | _, _ => none

end Sys2Proof.Machine
end

