-- ==== Sys2Proof/Machine/Ports.lean ====
section
/-! DEFINITION. The ports of the block and the events of one clock edge (30_encoding R81, 60_exceptions R197). -/

namespace Sys2Proof.Machine

open Sys2Proof

/-- Operations performed one after another, each on the state the previous one left, stopping at the first refusal. -/
def execAll : List Instr → State → Host.Outcome State Fault Refusal
  | [], s => .next s
  | i :: is, s =>
    match exec i s with
    | .next t => execAll is t
    | .fault f => .fault f
    | .refused r => .refused r

/-- The input ports sampled on one active edge of `clk` (R81). -/
structure Ports where
  rst : Bool
  ftick : Bool
  stick : Bool
  cmdValid : Bool
  cmdR : Byte
  cmdG : Byte
  cmdB : Byte
deriving DecidableEq, Repr

/-- The events of one edge in the order they are performed: `RESET`, which discards the others, or `FTICK`, `STICK`, `CMD`
(R197). With no strobe there is no event (R81). -/
def edgeEvents (p : Ports) : List Instr :=
  if p.rst then [.reset]
  else
    (if p.ftick then [.ftick] else []) ++ (if p.stick then [.stick] else []) ++
      (if p.cmdValid then [.cmd p.cmdR p.cmdG p.cmdB] else [])

/-- What one active edge of `clk` does (R197). In a trace the same events are consecutive words. -/
def clockEdge (p : Ports) (s : State) : Host.Outcome State Fault Refusal := execAll (edgeEvents p) s

end Sys2Proof.Machine
end

