-- ==== Sys2Proof/Safety.lean ====
section
/-! DEFINITION. What claims are stated in: the premises the spec names (R10, R92, R245) and the invariants of the state
(10_state R36 to R38). -/

namespace Sys2Proof.Safety

open Sys2Proof Sys2Proof.Machine

/-- `GAMMA_IN_CONTRACT`: every entry of the gamma table is at most 4080 (R112). -/
def GammaInContract (c : Config) : Prop := ∀ v : Nat, (h : v < 256) → (c.gamma[v]'h).toNat ≤ 4080

/-- The step is a cycle boundary: an `FTICK` on it wraps the counter (R121). -/
def AtWrap (s : State) : Prop := s.cnt = 255

/-- `ONE_PENDING` at this state: a boundary finds the flag clear (R231). -/
def OnePending (s : State) : Prop := AtWrap s → s.upd = false

/-- The error bound −16..14 (R146), with what it needs of a `STICK` suspended between `s2` and `s3`: the output it has written
is the one its channel's accumulator asks for. -/
def ErrBounded (s : State) : Prop :=
  (∀ ch : Channel, -16 ≤ s.err.get ch ∧ s.err.get ch ≤ 14) ∧
  (∀ ch t out, s.slow = some (.update ch t out) → out = quantOut (s.err.get ch) t)

/-- A value that `w` bits of two's complement hold (R12). -/
def SignedFits (w : Nat) (e : Int) : Prop := -2 ^ (w - 1) ≤ e ∧ e < 2 ^ (w - 1)

/-- The registers whose width is a parameter hold values of that width: `ERR_W` and `IDLE_W` bits (R22, R187, R36 (b)). -/
def RegistersFit (s : State) : Prop :=
  (∀ ch : Channel, SignedFits s.cfg.errW (s.err.get ch)) ∧ s.idleT < 2 ^ s.cfg.idleW

/-- Reset parameters under which the output law holds from reset on: the output is on exactly while the counter is below the
active value (R37; true of the defaults). -/
def OutputResetOk (c : Config) : Prop :=
  ∀ ch : Channel, c.outReset.get ch = .on ↔ c.cntReset.toNat < (c.actReset.get ch).toNat

/-- The output law: `OUT[ch]` is on if and only if `CNT` < `ACT[ch]` (R37). -/
def OutputLaw (s : State) : Prop :=
  ∀ ch : Channel, s.out.get ch = .on ↔ s.cnt.toNat < (s.act.get ch).toNat

/-- Every target, and every looked-up word on its way to a target, is in contract (R38). -/
def TargetsInContract (s : State) : Prop :=
  (∀ ch : Channel, (s.ti.get ch).toNat ≤ 4080) ∧
  (∀ c v, s.bg = some (.store c v) → ∀ ch : Channel, (v.get ch).toNat ≤ 4080)

/-- The configuration keeps targets in contract (R38): the table and the reset values are. -/
def ContractConfig (c : Config) : Prop :=
  GammaInContract c ∧ ∀ ch : Channel, (c.tiReset.get ch).toNat ≤ 4080

/-- Between operations the idle timer is below the threshold (R174). -/
def TimerBelow (s : State) : Prop := s.idleT < s.cfg.timeoutTicks

/-- A bounded queue never holds more than its capacity (R170, R171). -/
def QueueWithin (s : State) : Prop := ∀ n, s.cfg.qcap = some n → s.qlen ≤ n

/-- Two states that agree on everything but the targets and the environment: what the generator sees (R130). -/
def SameGenerator (s t : State) : Prop :=
  s.cnt = t.cnt ∧ s.pend = t.pend ∧ s.act = t.act ∧ s.out = t.out

/-- The block's registers other than those a quantizer run writes. -/
def SameOutside (s t : State) : Prop :=
  s.ti = t.ti ∧ s.act = t.act ∧ s.cnt = t.cnt ∧ s.out = t.out

/-- The registers a quantizer run writes: `UPD`, `PEND`, `ERR` (R140). -/
def SameQuantizer (s t : State) : Prop := s.upd = t.upd ∧ s.pend = t.pend ∧ s.err = t.err

/-- The environment's three pieces of state (R32). -/
def SameEnv (s t : State) : Prop := s.q = t.q ∧ s.idleT = t.idleT ∧ s.lastCnt = t.lastCnt

/-- The model's own fields and the configuration: what only the fetch touches, and what nothing touches. -/
def SameInputs (s t : State) : Prop :=
  s.cfg = t.cfg ∧ s.trace = t.trace ∧ s.pos = t.pos ∧ s.gaps = t.gaps

/-- The operations in progress (R33). -/
def SameProgress (s t : State) : Prop := s.slow = t.slow ∧ s.bg = t.bg

/-- Every word of the gamma ROM reads the same in both states (R62). -/
def SameRom (s t : State) : Prop := ∀ v : Byte, s.memReadGamma v = t.memReadGamma v

/-- An empty queue goes with a timer at 0: between operations nothing counts while nothing waits (R174, R172, R186). -/
def TimerIdle (s : State) : Prop := s.q = [] → s.idleT = 0

/-- The same state under the other granularity (R64). -/
def withSched (c : Sched) (s : State) : State := { s with cfg := { s.cfg with sched := c } }

/-- Consecutive quantizer runs on one channel with accumulators of `w` bits, for a list of targets from an accumulator: the
untruncated outputs and the last accumulator (R147). -/
def quantStream (w : Nat) : List Intensity → Int → List QuantOut × Int
  | [], e => ([], e)
  | t :: ts, e =>
    let out := quantOut e t
    let r := quantStream w ts (errOf w e t out)
    (out :: r.1, r.2)

end Sys2Proof.Safety
end

