-- ==== Sys2Proof/Certificates/Slice0/Obligations.lean ====
section
/-! DEFINITION. The statements for the provers. Each docstring names the rule of spec/ it formalises; where a clause rests on a
choice the spec marks as its own, or on the model's, the docstring says so and names the decision or the log entry. -/

open Sys2Proof Sys2Proof.Machine Sys2Proof.Safety

/-! ## Encoding -/

/-- The eighteen decode vectors of 95_test_vectors section 2, written out byte by byte (R82, R83, R85; the stimulus word is the
spec's own decision D10). -/
def Obligations.ListedWordsDecodeAsListed : Prop :=
  decode [0x01, 0x00, 0x00, 0x00] = .ok (.ftick, []) ∧
  decode [0x02, 0x00, 0x00, 0x00] = .ok (.stick, []) ∧
  decode [0x03, 0x01, 0x80, 0xFF] = .ok (.cmd 1 128 255, []) ∧
  decode [0x03, 0x00, 0x00, 0x00] = .ok (.cmd 0 0 0, []) ∧
  decode [0x03, 0xFF, 0xFF, 0xFF] = .ok (.cmd 255 255 255, []) ∧
  decode [0x03, 0x64, 0x00, 0x00] = .ok (.cmd 100 0 0, []) ∧
  decode [0x04, 0x00, 0x00, 0x0A] = .ok (.enq 10, []) ∧
  decode [0x04, 0x00, 0x00, 0xFF] = .ok (.enq 255, []) ∧
  decode [0x05, 0x00, 0x00, 0x00] = .ok (.bgpoll, []) ∧
  decode [0x06, 0x00, 0x00, 0x00] = .ok (.reset, []) ∧
  decode [0x00, 0x00, 0x00, 0x00] = .error (.reservedOp 0x00000000) ∧
  decode [0x01, 0x00, 0x00, 0x01] = .error (.nonZeroArg 0x01000001) ∧
  decode [0x02, 0x80, 0x00, 0x00] = .error (.nonZeroArg 0x02800000) ∧
  decode [0x04, 0x00, 0x01, 0x00] = .error (.nonZeroArg 0x04000100) ∧
  decode [0x05, 0x00, 0x00, 0x01] = .error (.nonZeroArg 0x05000001) ∧
  decode [0x06, 0xFF, 0xFF, 0xFF] = .error (.nonZeroArg 0x06FFFFFF) ∧
  decode [0x07, 0x00, 0x00, 0x00] = .error (.reservedOp 0x07000000) ∧
  decode [0xFF, 0xFF, 0xFF, 0xFF] = .error (.reservedOp 0xFFFFFFFF)

/-- Decoding the bytes of an operation gives it back, whatever follows it in the stream (R82, R83; the stimulus word is the
spec's own, D10). -/
def Obligations.DecodeOfEncodeIsTheOperation : Prop :=
  ∀ (i : Instr) (rest : List Byte), decode (encode i ++ rest) = .ok (i, rest)

/-- Bytes that decode to an operation are its encoding: each operation has one spelling (R83, R87). -/
def Obligations.DecodedBytesAreTheEncoding : Prop :=
  ∀ (bs : List Byte) (i : Instr) (rest : List Byte), decode bs = .ok (i, rest) → bs = encode i ++ rest

/-- A word decodes to the operation of the row of R83 that spells it, and to none exactly when no row does (R83, R85). -/
def Obligations.WordDecodesByItsRow : Prop :=
  ∀ w : StimWord,
    (∀ i, decodeWord w = .ok i → ∃ row ∈ opTable, row.spells w = true ∧ row.mnemonic = i.mnemonic) ∧
    ((∃ e, decodeWord w = .error e) ↔ ∀ row ∈ opTable, row.spells w = false)

/-- No word is spelled by two rows (R83). -/
def Obligations.RowsAreDisjoint : Prop :=
  ∀ (w : StimWord), ∀ row ∈ opTable, ∀ row' ∈ opTable, row.spells w = true → row'.spells w = true → row = row'

/-- Every statement and pseudo-operation of the assembly gives the words R88 and R89 list for it; an operand above 255 is an
assembly error, and so is a count of 0 (R88, R89; the syntax is the spec's own, D10; the error for a count of 0 is the model's
reading of "n ≥ 1", log 23). -/
def Obligations.AssemblyGivesTheListedWords : Prop :=
  (∀ n : Nat, 1 ≤ n →
    (Stmt.ftick n).words = some (List.replicate n 0x01000000) ∧
    (Stmt.stick n).words = some (List.replicate n 0x02000000) ∧
    (Stmt.frame n).words = some (List.replicate n (List.replicate 256 0x01000000 ++ [0x02000000])).flatten) ∧
  (∀ r g b : Nat, r ≤ 255 → g ≤ 255 → b ≤ 255 →
    (Stmt.cmd r g b).words = some [0x03000000 + r * 65536 + g * 256 + b] ∧
    (Stmt.msg r g b).words = some [0x04000000 + r, 0x04000000 + g, 0x04000000 + b]) ∧
  (∀ x : Nat, x ≤ 255 → (Stmt.enq x).words = some [0x04000000 + x]) ∧
  Stmt.bgpoll.words = some [0x05000000] ∧ Stmt.reset.words = some [0x06000000] ∧
  Stmt.cycle.words = some (List.replicate 256 0x01000000) ∧
  (∀ r g b : Nat, 255 < r ∨ 255 < g ∨ 255 < b → (Stmt.cmd r g b).words = none ∧ (Stmt.msg r g b).words = none) ∧
  (∀ x : Nat, 255 < x → (Stmt.enq x).words = none) ∧
  (Stmt.ftick 0).words = none ∧ (Stmt.stick 0).words = none ∧ (Stmt.frame 0).words = none

/-! ## The step -/

/-- When an event arrives and the bytes of the trace decode to an operation, the step performs it on the state whose trace has
moved past the word, with nothing else changed (R90; the trace in the state is the model's, log 6 and log 7). -/
def Obligations.StepRunsTheDecodedOperation : Prop :=
  ∀ (s : State) (i : Instr) (rest : List Byte), s.takesEvent = true → decode s.trace = .ok (i, rest) →
    step s = exec i { s with trace := rest, pos := s.pos + 1, gaps := s.gaps.tail }

/-- Placing a word where the next one is fetched makes the next step run exactly it (the model's own, log 6). -/
def Obligations.PlacedWordRunsNext : Prop :=
  ∀ (s : State) (nbits w : Nat) (i : Instr), decodeTableWord nbits w = some i →
    step (s.withFetchWord nbits w) =
      exec i { s with trace := s.trace.drop 4, pos := s.pos + 1, gaps := (s.withFetchWord nbits w).gaps.tail }

/-- With no event the work in progress goes on by one micro-step, and with none in progress nothing changes: an edge with no
strobe is no event (R81). The pace of one micro-step a step is the model's choice (log 8), so is the counting down to the next
arrival (log 7), and so is what the end of a trace does (log 6). -/
def Obligations.StepWithoutAnEvent : Prop :=
  ∀ s : State, s.takesEvent = false →
    (s.busy = true → step s = .next (microStep { s with gaps := countGap s.gaps })) ∧
    (s.busy = false → step s = .next s)

/-- A word that no row of the operation map spells is refused at its position: never skipped, never a no-op (R85). -/
def Obligations.ReservedWordRefusedAtItsPosition : Prop :=
  ∀ (s : State) (b3 b2 b1 b0 : Byte) (rest : List Byte), s.eventDue = true → s.trace = b3 :: b2 :: b1 :: b0 :: rest →
    (∀ row ∈ opTable, row.spells (wordOfBytes b3 b2 b1 b0) = false) →
      ∃ e, step s = .refused (.invalidWord s.pos e)

/-- Every operation is defined on every state with nothing in progress and every operand: it completes, except for the one
refusal of an arrival at a full bounded queue; it never faults (R93, R190, R203; a state with work in progress is the subject of
`RefusalsAreTheNamedOnes`). -/
def Obligations.OperationsCompleteWhenNothingIsInProgress : Prop :=
  ∀ (i : Instr) (s : State), s.quiet = true → ((∃ x, i = .enq x) → s.queueFull = false) →
    ∃ t, exec i s = .next t

/-- The only refusals. An operation is refused for an overrun or for a full queue; a step is refused at an event only, for a word
that does not decode, at its position, or because its operation is; and it is refused whenever the word does not decode, so at a
word cut short by the end of the trace too (R85, R203; the refusals of R198 and R171 are the spec's decisions D18 and D17; the
cut word is the model's choice, log 9). -/
def Obligations.RefusalsAreTheNamedOnes : Prop :=
  (∀ (i : Instr) (s : State) (r : Refusal), exec i s = .refused r →
    (i = .stick ∧ s.slow.isSome = true ∧ r = .slowOverrun) ∨
    (((∃ a b c, i = .cmd a b c) ∨ i = .bgpoll) ∧ s.bg.isSome = true ∧ r = .backgroundOverrun) ∨
    ((∃ x, i = .enq x) ∧ (∃ n, s.cfg.qcap = some n ∧ n ≤ s.q.length) ∧ r = .queueFull)) ∧
  (∀ (s : State) (r : Refusal), step s = .refused r → s.takesEvent = true ∧
    ((∃ e, decode s.trace = .error e ∧ r = .invalidWord s.pos e) ∨
     (∃ i rest, decode s.trace = .ok (i, rest) ∧
       exec i { s with trace := rest, pos := s.pos + 1, gaps := s.gaps.tail } = .refused r))) ∧
  (∀ (s : State) (e : DecodeError), s.takesEvent = true → decode s.trace = .error e →
    step s = .refused (.invalidWord s.pos e)) ∧
  (∀ s : State, s.eventDue = true → 1 ≤ s.trace.length → s.trace.length ≤ 3 →
    step s = .refused (.invalidWord s.pos .truncated))

/-! ## FTICK -/

/-- Every fast tick advances the counter by one modulo 256 (R26; that the incremented value is the one compared is the spec's
decision D4, log 15). -/
def Obligations.FastTickAdvancesTheCounter : Prop :=
  ∀ s : State, ∃ t, exec .ftick s = .next t ∧ t.cnt.toNat = (s.cnt.toNat + 1) % 256

/-- At a cycle boundary, where the incremented count is 0, all outputs are set on (a channel whose new active value is 0 goes
off again by the compare of the same tick, R123), Pending is copied to Active and keeps its values, and the flag is set
whatever it was; on every other tick Active and the flag stay (R122). -/
def Obligations.BoundaryTransfersPendingAndRaisesTheFlag : Prop :=
  ∀ s : State, ∃ t, exec .ftick s = .next t ∧ t.pend = s.pend ∧
    (t.cnt = 0 → t.act = s.pend ∧ t.upd = true ∧ ∀ ch, t.act.get ch ≠ 0 → t.out.get ch = .on) ∧
    (t.cnt ≠ 0 → t.act = s.act ∧ t.upd = s.upd)

/-- On every tick, after the boundary actions if any, a channel whose active value equals the count goes off and every other is
left as the boundary or the tick before left it (R123). -/
def Obligations.FastTickComparesEveryChannel : Prop :=
  ∀ s : State, ∃ t, exec .ftick s = .next t ∧ ∀ ch : Channel,
    (t.act.get ch = t.cnt → t.out.get ch = .off) ∧
    (t.act.get ch ≠ t.cnt → t.out.get ch = if t.cnt = 0 then .on else s.out.get ch)

/-- What a fast tick leaves unchanged: targets, accumulators, Pending, the environment, the operations in progress, the
configuration and every word of the ROM, the trace (R120, R130). -/
def Obligations.FastTickFrame : Prop :=
  ∀ s t : State, exec .ftick s = .next t →
    t.ti = s.ti ∧ t.err = s.err ∧ t.pend = s.pend ∧ SameEnv s t ∧ SameProgress s t ∧ SameInputs s t ∧ SameRom s t

/-- The generator is a function of its own registers: states that agree on the counter, Pending, Active and the outputs agree on
them after a fast tick, whatever the targets, accumulators, flag and environment are (R130, R37). -/
def Obligations.GeneratorIgnoresTargetsAndErrors : Prop :=
  ∀ s s' t t' : State, SameGenerator s s' → exec .ftick s = .next t → exec .ftick s' = .next t' → SameGenerator t t'

/-- The waveform of one cycle: from the last tick of a cycle, after `k + 1` fast ticks the count is `k` and a channel is on
exactly while `k` is below the value that was pending (R124). -/
def Obligations.OneCycleIsOnBelowTheDutyValue : Prop :=
  ∀ (s : State) (k : Nat), s.cnt = 255 → k ≤ 255 →
    ∃ t, execAll (List.replicate (k + 1) .ftick) s = .next t ∧ t.cnt.toNat = k ∧ t.act = s.pend ∧
      ∀ ch : Channel, t.out.get ch = .on ↔ k < (s.pend.get ch).toNat

/-- A boundary establishes the output law from every state (R37). -/
def Obligations.BoundaryEstablishesTheOutputLaw : Prop :=
  ∀ s : State, s.cnt = 255 → ∃ t, exec .ftick s = .next t ∧ OutputLaw t

/-- Every step keeps the output law, under reset parameters that satisfy it (R37). -/
def Obligations.StepsKeepTheOutputLaw : Prop :=
  ∀ s t : State, OutputResetOk s.cfg ∧ OutputLaw s → step s = .next t → OutputResetOk t.cfg ∧ OutputLaw t

/-- Two boundaries with no slow tick between them: the first transfers Pending to Active and keeps it, so the second, which finds
the flag still set, transfers the same values again; nothing is reported, Active repeats for another cycle and the flag stays
set (R231, R128; the transfer is a copy and not an exchange, conflict C1). -/
def Obligations.MissedUpdateRepeatsTheDutyValues : Prop :=
  ∀ s : State, s.cnt = 255 →
    ∃ t u, execAll (List.replicate 256 .ftick) s = .next t ∧
      t.cnt = 255 ∧ t.act = s.pend ∧ t.pend = s.pend ∧ t.upd = true ∧
      execAll (List.replicate 256 .ftick) t = .next u ∧
      u.cnt = 255 ∧ u.act = s.pend ∧ u.pend = s.pend ∧ u.upd = true

/-- A slow tick between two boundaries keeps `ONE_PENDING`: after it, through every fast tick up to the next boundary, that boundary
finds the flag clear (R231, R240). -/
def Obligations.SlowTickInEveryCycleKeepsOnePending : Prop :=
  ∀ (s : State) (k : Nat), s.slow = none → s.cfg.sched = .atomic → s.cnt.toNat + k ≤ 255 →
    ∃ t, execAll (.stick :: List.replicate k .ftick) s = .next t ∧ t.cnt.toNat = s.cnt.toNat + k ∧
      t.upd = false ∧ OnePending t

/-- Bit `ch` of `out[2:0]` is 1 exactly while the channel is on, and the physical line has the channel's `ON_LEVEL` exactly then
(R81, R135; the level is a free value, log 4). -/
def Obligations.OutPortShowsTheOutputs : Prop :=
  ∀ (s : State) (ch : Channel),
    (s.outPort.getLsbD ch.index = true ↔ s.out.get ch = .on) ∧
    (s.lineHigh ch = s.cfg.onLevel.get ch ↔ s.out.get ch = .on)

/-! ## STICK -/

/-- A slow tick that finds the flag set: the flag is cleared, and per channel, on exact integers, the output is the top 8 bits
of the target, one more when the accumulator is not negative; Pending gets its low 8 bits, and the accumulator gains the target
less 16 times the untruncated output, at every width of at least 6 bits and from every value of that width (R140 to R145; the
narrowing is the spec's decision D7, log 16; the width is D8, log 10). -/
def Obligations.SlowTickQuantizesEveryChannel : Prop :=
  ∀ s : State, s.slow = none → s.cfg.sched = .atomic → s.upd = true → s.cfg.errWOk = true → RegistersFit s →
    ∃ t, exec .stick s = .next t ∧ t.upd = false ∧ ∀ ch : Channel,
      (0 ≤ s.err.get ch →
        (t.pend.get ch).toNat = ((s.ti.get ch).toNat / 16 + 1) % 256 ∧
        t.err.get ch = s.err.get ch + (s.ti.get ch).toNat - 16 * ((s.ti.get ch).toNat / 16 + 1)) ∧
      (s.err.get ch < 0 →
        (t.pend.get ch).toNat = (s.ti.get ch).toNat / 16 ∧
        t.err.get ch = s.err.get ch + (s.ti.get ch).toNat - 16 * ((s.ti.get ch).toNat / 16))

/-- Every step keeps the accumulators within `ERR_W` bits and the idle timer within `IDLE_W` bits, whatever the two widths are
(R36 (b), R22, R187; that both are held as values and narrowed where they are stored is the model's choice, log 10). -/
def Obligations.StepsKeepTheRegistersInTheirWidths : Prop :=
  ∀ s t : State, RegistersFit s → step s = .next t → RegistersFit t

/-- A slow tick that finds the flag clear does nothing to the block, under both granularities: as one step (R153), and as the three
micro-steps test, clear, guard after its start (R63, whose split of the flag take is the spec's decision D3; that an event first
registers its operation is the model's choice, log 8). -/
def Obligations.SlowTickWithTheFlagClearLeavesTheBlock : Prop :=
  ∀ s : State, s.slow = none → s.upd = false →
    (s.cfg.sched = .atomic → ∃ t, exec .stick s = .next t ∧ SameOutside s t ∧ SameQuantizer s t) ∧
    (s.cfg.sched = .preemptive → ∃ t, exec .stick s = .next t ∧ (microRun 3 t).slow = none ∧
      SameOutside s (microRun 3 t) ∧ SameQuantizer s (microRun 3 t))

/-- What a slow tick leaves unchanged: targets, Active, counter, outputs, the operations in progress, the configuration and
every word of the ROM, the trace (R154, R34). Under `preemptive` the event changes the slow task's position only: that it
registers its operation before the first micro-step is the model's choice (log 8). -/
def Obligations.SlowTickFrame : Prop :=
  ∀ s t : State, exec .stick s = .next t →
    SameOutside s t ∧ SameInputs s t ∧ SameRom s t ∧ t.bg = s.bg ∧
    (s.cfg.sched = .atomic → t.slow = s.slow) ∧
    (s.cfg.sched = .preemptive → t.slow = some .test ∧ SameQuantizer s t ∧ SameEnv s t)

/-- The guard's transitions in one slow tick, for a threshold in its range and a timer below it: Idle, growth, one more tick
without growth, Flush (R174, R175; the mechanics are the spec's decision D16, log 18). -/
def Obligations.SlowTickRunsTheTimeoutGuard : Prop :=
  ∀ s : State, s.slow = none → s.cfg.sched = .atomic → s.cfg.timeoutOk = true → TimerBelow s →
    ∃ t, exec .stick s = .next t ∧
      (s.q.length = 0 → t.q = s.q ∧ t.idleT = 0 ∧ t.lastCnt = 0) ∧
      (0 < s.q.length → s.lastCnt < s.q.length → t.q = s.q ∧ t.idleT = 0 ∧ t.lastCnt = s.q.length) ∧
      (0 < s.q.length → s.q.length ≤ s.lastCnt → s.idleT + 1 < s.cfg.timeoutTicks →
        t.q = s.q ∧ t.idleT = s.idleT + 1 ∧ t.lastCnt = s.q.length) ∧
      (0 < s.q.length → s.q.length ≤ s.lastCnt → s.cfg.timeoutTicks ≤ s.idleT + 1 →
        t.q = [] ∧ t.idleT = 0 ∧ t.lastCnt = 0)

/-- The quantizer's lanes are independent, and it sees nothing but the flag, the targets and the accumulators: for states that
agree on the flag, the accumulators' width, and one channel's target and accumulator, that channel's accumulator agrees after a
slow tick, and with the flag set its Pending agrees too, whatever both Pendings were before; with the flag clear its Pending
agrees if it did before (R149, R154, R153). -/
def Obligations.QuantizerLanesAreIndependent : Prop :=
  ∀ (s s' t t' : State) (ch : Channel), s.cfg.sched = .atomic → s'.cfg.sched = .atomic → s.cfg.errW = s'.cfg.errW →
    s.upd = s'.upd → s.ti.get ch = s'.ti.get ch → s.err.get ch = s'.err.get ch →
    exec .stick s = .next t → exec .stick s' = .next t' →
      t.err.get ch = t'.err.get ch ∧
      (s.upd = true ∨ s.pend.get ch = s'.pend.get ch → t.pend.get ch = t'.pend.get ch)

/-- Every step keeps the error accumulators in −16..14, for every gamma table, both granularities and every width of at least 6
bits (R146; the narrowing is the spec's decision D7, log 16). -/
def Obligations.StepsKeepTheErrorBound : Prop :=
  ∀ s t : State, s.cfg.errWOk = true ∧ ErrBounded s → step s = .next t → t.cfg.errWOk = true ∧ ErrBounded t

/-- The averaging identity over any list of targets, with the untruncated outputs, and its bound 30, at every width of at least 6
bits (R147). -/
def Obligations.OutputsAverageToTheTargets : Prop :=
  ∀ (w : Nat) (ts : List Intensity) (e : Int), 6 ≤ w → -16 ≤ e → e ≤ 14 →
    ((ts.map fun t : Intensity => (t.toNat : Int)).sum) -
        16 * (((quantStream w ts e).1.map fun out : QuantOut => (out.toNat : Int)).sum) = (quantStream w ts e).2 - e ∧
    (quantStream w ts e).2 - e ≤ 30 ∧ e - (quantStream w ts e).2 ≤ 30

/-- A target with remainder 0 that finds a non-negative accumulator gives one output of `floor + 1` and a rest after it: the
accumulator falls by 16, becomes negative, and from then on every output is `floor` and it stays, at every width of at least 6
bits (R148, R150, R151). At 4080 the one output is 256, stored as 0 (D7, log 16). -/
def Obligations.RemainderZeroGivesOneTransient : Prop :=
  ∀ (w : Nat) (t : Intensity) (e : Int), 6 ≤ w → remValue t = 0 → 0 ≤ e → e ≤ 14 →
    let e' := errOf w e t (quantOut e t)
    (quantOut e t).toNat = floorValue t + 1 ∧ e' = e - 16 ∧
      (quantOut e' t).toNat = floorValue t ∧ errOf w e' t (quantOut e' t) = e' ∧
      (t = 4080 → pendOf (quantOut e t) = 0 ∧ pendOf (quantOut e' t) = 255)

/-- In the steady state of a constant target, sixteen runs return the accumulator to where it was and exactly `rem` of them
output `floor + 1`, the rest `floor`, at every width of at least 6 bits (R148). -/
def Obligations.SixteenRunsRoundUpRemTimes : Prop :=
  ∀ (w : Nat) (t : Intensity) (e : Int), 6 ≤ w → (remValue t : Int) - 16 ≤ e → e ≤ (remValue t : Int) - 1 →
    let run := quantStream w (List.replicate 16 t) e
    run.2 = e ∧
    (run.1.map fun out => out.toNat).count (floorValue t + 1) = remValue t ∧
    (run.1.map fun out => out.toNat).count (floorValue t) = 16 - remValue t

/-- Out-of-contract targets are dimmer than full scale: over sixteen steady runs the values a run stores in Pending (`pendOf` of
its outputs) sum to `255·(16 − rem)`, against `16·255` for 4080, at every width of at least 6 bits (R152; with the narrowing of
D7, log 16). -/
def Obligations.OutOfContractTargetsAreDimmer : Prop :=
  ∀ (w : Nat) (t : Intensity) (e : Int), 6 ≤ w → 4080 ≤ t.toNat →
    (remValue t : Int) - 16 ≤ e → e ≤ (remValue t : Int) - 1 →
    ((quantStream w (List.replicate 16 t) e).1.map fun out => (pendOf out).toNat).sum = 255 * (16 - remValue t)

/-- The modular form (R159): with an accumulator of at most 12 bits the update with the stored Pending gives the same value as the
update with the untruncated output; with 6 bits and more, within the error bound, that value is the exact sum of R144; the
8-bit shift and subtraction is an instance; and with more than 12 bits the two differ whenever the output is 256. The stored
Pending is its low 8 bits (D7, log 16). -/
def Obligations.NarrowAccumulatorGivesTheSameError : Prop :=
  ∀ (w : Nat) (e : Int) (t : Intensity),
    (w ≤ 12 →
      errOf w e t (quantOut e t) = narrowErr w (e + t.toNat - 16 * (pendOf (quantOut e t)).toNat)) ∧
    (6 ≤ w → -16 ≤ e → e ≤ 14 → errOf w e t (quantOut e t) = e + t.toNat - 16 * (quantOut e t).toNat) ∧
    errOf 8 e t (quantOut e t) = (BitVec.ofInt 8 e + t.setWidth 8 - (pendOf (quantOut e t)) <<< 4).toInt ∧
    (12 < w → (quantOut e t).toNat = 256 →
      errOf w e t (quantOut e t) ≠ narrowErr w (e + t.toNat - 16 * (pendOf (quantOut e t)).toNat))

/-! ## CMD, ENQ, BGPOLL -/

/-- `CMD r, g, b` is accepted for all operands and writes the three looked-up words as they are, in message order R, G, B: as one
step (R160, R161, R162), and as its four micro-steps after a start with no slow tick in progress (R63, the spec's decision D3;
that an event first registers its operation is the model's choice, log 8). -/
def Obligations.CommandWritesTheThreeTargets : Prop :=
  ∀ (r g b : Byte) (s : State), s.bg = none →
    (s.cfg.sched = .atomic → ∃ t, exec (.cmd r g b) s = .next t ∧
      t.ti.get .r = s.memReadGamma r ∧ t.ti.get .g = s.memReadGamma g ∧ t.ti.get .b = s.memReadGamma b) ∧
    (s.cfg.sched = .preemptive → s.slow = none → ∃ t, exec (.cmd r g b) s = .next t ∧ (microRun 4 t).bg = none ∧
      (microRun 4 t).ti.get .r = s.memReadGamma r ∧ (microRun 4 t).ti.get .g = s.memReadGamma g ∧
      (microRun 4 t).ti.get .b = s.memReadGamma b)

/-- What a command leaves unchanged: the accumulators, Pending, Active, counter, flag, outputs, the environment, the slow task,
the configuration and every word of the ROM, the trace (R160, R34). Under `preemptive` the event leaves the targets too and changes
the background loop's position only: that it registers its operation before the first micro-step is the model's choice
(log 8). -/
def Obligations.CommandFrame : Prop :=
  ∀ (r g b : Byte) (s t : State), exec (.cmd r g b) s = .next t →
    SameQuantizer s t ∧ t.act = s.act ∧ t.cnt = s.cnt ∧ t.out = s.out ∧ SameEnv s t ∧ t.slow = s.slow ∧
    SameInputs s t ∧ SameRom s t ∧ (s.cfg.sched = .atomic → t.bg = s.bg) ∧
    (s.cfg.sched = .preemptive → t.ti = s.ti ∧ t.bg = some (.lookup r g b))

/-- Performing a message twice in succession leaves the same state as performing it once (R163). -/
def Obligations.CommandIsIdempotent : Prop :=
  ∀ (r g b : Byte) (s : State), s.bg = none → s.cfg.sched = .atomic →
    ∃ t, execAll [.cmd r g b] s = .next t ∧ execAll [.cmd r g b, .cmd r g b] s = .next t

/-- `ENQ x` appends the byte at the tail of a queue that is not full and changes nothing else (R171; an unbounded queue is never
full, log 11). -/
def Obligations.EnqueueAppendsTheByte : Prop :=
  ∀ (x : Byte) (s : State), (∀ n, s.cfg.qcap = some n → s.q.length < n) →
    exec (.enq x) s = .next { s with q := s.q ++ [x] }

/-- `BGPOLL` with three bytes or more removes the oldest three, clears the idle timer and applies them as one message, the
oldest to channel R; nothing else changes: as one step (R172; that the timer is cleared inside the dequeue is the spec's decision
D16), and as its five micro-steps after a start with no slow tick in progress (R63; that an event first registers its operation
is the model's choice, log 8). -/
def Obligations.PollAppliesTheOldestThreeBytes : Prop :=
  ∀ (r g b : Byte) (rest : List Byte) (s : State), s.bg = none → s.q = r :: g :: b :: rest →
    (s.cfg.sched = .atomic → exec .bgpoll s =
      .next { s with q := rest, idleT := 0, ti := ⟨s.memReadGamma r, s.memReadGamma g, s.memReadGamma b⟩ }) ∧
    (s.cfg.sched = .preemptive → s.slow = none → ∃ t, exec .bgpoll s = .next t ∧
      microRun 5 t = { s with q := rest, idleT := 0, ti := ⟨s.memReadGamma r, s.memReadGamma g, s.memReadGamma b⟩ })

/-- `BGPOLL` with fewer than three bytes does nothing and the bytes stay: as one step (R172, R177), and as its one micro-step after
a start with no slow tick in progress (R63; that an event first registers its operation is the model's choice, log 8). -/
def Obligations.PollWithAPartialMessageDoesNothing : Prop :=
  ∀ s : State, s.bg = none → s.q.length < 3 →
    (s.cfg.sched = .atomic → exec .bgpoll s = .next s) ∧
    (s.cfg.sched = .preemptive → s.slow = none → ∃ t, exec .bgpoll s = .next t ∧ microRun 1 t = s)

/-- Message atomicity: from an empty queue, one byte, then polls and fewer than `TIMEOUT_TICKS` slow ticks, then the other two
bytes with polls between, applies exactly the one message and leaves the queue empty (R181). -/
def Obligations.BytesInTwoBurstsMakeOneMessage : Prop :=
  ∀ (a b c : Byte) (n : Nat) (s : State), s.quiet = true → s.cfg.sched = .atomic → s.cfg.wf = true → s.q = [] →
    TimerIdle s → n < s.cfg.timeoutTicks →
    (∃ u, execAll ([.enq a, .bgpoll] ++ List.replicate n .stick ++ [.bgpoll, .enq b, .bgpoll, .enq c]) s = .next u ∧
      u.ti = s.ti ∧ u.q = [a, b, c]) ∧
    (∃ t, execAll ([.enq a, .bgpoll] ++ List.replicate n .stick ++ [.bgpoll, .enq b, .bgpoll, .enq c, .bgpoll]) s = .next t ∧
      t.q = [] ∧ t.ti = ⟨s.memReadGamma a, s.memReadGamma b, s.memReadGamma c⟩)

/-- Timeout recovery: bytes left waiting through `TIMEOUT_TICKS + 1` slow ticks are discarded, and a fresh message after them is
applied alone (R182, R176). -/
def Obligations.StalledBytesAreNotPrepended : Prop :=
  ∀ (x y z : Byte) (s : State), s.quiet = true → s.cfg.sched = .atomic → s.cfg.wf = true → TimerBelow s →
    ∃ u t, execAll (List.replicate (s.cfg.timeoutTicks + 1) .stick) s = .next u ∧ u.q = [] ∧
      execAll [.enq x, .enq y, .enq z, .bgpoll] u = .next t ∧ t.q = [] ∧
      t.ti = ⟨s.memReadGamma x, s.memReadGamma y, s.memReadGamma z⟩

/-- Every step keeps the idle timer below the threshold, for a threshold in its range (R174). -/
def Obligations.StepsKeepTheTimerBelowTheThreshold : Prop :=
  ∀ s t : State, s.cfg.timeoutOk = true ∧ TimerBelow s → step s = .next t → t.cfg.timeoutOk = true ∧ TimerBelow t

/-- Every step keeps an empty queue's timer at 0, for a threshold in its range (R174, R172). -/
def Obligations.StepsKeepTheTimerIdle : Prop :=
  ∀ s t : State, s.cfg.timeoutOk = true ∧ TimerIdle s → step s = .next t → t.cfg.timeoutOk = true ∧ TimerIdle t

/-- Every step keeps a bounded queue within its capacity (R170, R171). -/
def Obligations.StepsKeepTheQueueWithinItsCapacity : Prop :=
  ∀ s t : State, QueueWithin s → step s = .next t → QueueWithin t

/-! ## RESET -/

/-- `RESET` in any state sets every register to its reset value, empties the environment, discards the operations in progress,
and leaves the configuration and every word of the ROM (R220, R35; the values are parameters of the configuration, D1; that the
trace stays is the model's choice, log 24). -/
def Obligations.ResetWritesEveryRegister : Prop :=
  ∀ s : State, ∃ t, exec .reset s = .next t ∧ (∀ ch, t.err.get ch = 0) ∧ t.ti = s.cfg.tiReset ∧
    t.pend = s.cfg.pendReset ∧ t.act = s.cfg.actReset ∧ t.out = s.cfg.outReset ∧ t.cnt = s.cfg.cntReset ∧
    t.upd = s.cfg.updReset ∧ t.q = [] ∧ t.idleT = 0 ∧ t.lastCnt = 0 ∧ t.slow = none ∧ t.bg = none ∧
    SameInputs s t ∧ SameRom s t

/-- The machine after reset: the values of R35 (all but the accumulators' are the spec's decision D1, log 5), nothing in
progress, no trace (log 6), and a `RESET` on it changes nothing. -/
def Obligations.StateAfterReset : Prop :=
  State.reset.err = PerCh.all 0 ∧ State.reset.ti = PerCh.all 0 ∧ State.reset.pend = PerCh.all 0 ∧
  State.reset.act = PerCh.all 0 ∧ State.reset.cnt = 0 ∧ State.reset.upd = false ∧ State.reset.out = PerCh.all .off ∧
  State.reset.q = [] ∧ State.reset.idleT = 0 ∧ State.reset.lastCnt = 0 ∧ State.reset.quiet = true ∧
  State.reset.trace = [] ∧ exec .reset State.reset = .next State.reset

/-- Every invariant below and above holds at reset: the error bound (the accumulators are zero, R22), the registers in their
widths (8 bits each, the defaults of R10, D8 and D16, log 10), the output law and its premise (R37), the targets in contract and
so the reset targets (R38), the timer below its threshold and at 0 with an empty queue (R174), the queue within its capacity
(R170). The reset values other than the accumulators' are the spec's decision D1 (log 5), the unbounded queue D17 (log 11), the
threshold a free value in its range (log 3). -/
def Obligations.InvariantsHoldAtReset : Prop :=
  (∀ ch, State.reset.err.get ch = 0) ∧ ErrBounded State.reset ∧ RegistersFit State.reset ∧
  State.reset.cfg.errW = 8 ∧ State.reset.cfg.idleW = 8 ∧
  OutputResetOk State.reset.cfg ∧ OutputLaw State.reset ∧
  (∀ ch, (State.reset.cfg.tiReset.get ch).toNat ≤ 4080) ∧ TargetsInContract State.reset ∧
  State.reset.cfg.wf = true ∧ TimerBelow State.reset ∧ TimerIdle State.reset ∧ QueueWithin State.reset

/-! ## The whole machine -/

/-- Every word of the gamma ROM reads the same before and after any step (R111, R62). -/
def Obligations.StepsLeaveTheGammaTable : Prop :=
  ∀ s t : State, step s = .next t → t.cfg = s.cfg ∧ ∀ v : Byte, t.memReadGamma v = s.memReadGamma v

/-- Every step keeps targets in contract, and looked-up words on their way to a target, when the table and the reset values are
(R38). -/
def Obligations.StepsKeepTargetsInContract : Prop :=
  ∀ s t : State, ContractConfig s.cfg ∧ TargetsInContract s → step s = .next t →
    ContractConfig t.cfg ∧ TargetsInContract t

/-- Active changes only at a cycle boundary, and then to Pending, or by `RESET` (R25, R36 (c), R239). -/
def Obligations.ActiveChangesOnlyAtABoundary : Prop :=
  ∀ s t : State, step s = .next t → t.act ≠ s.act →
    (∃ rest, decode s.trace = .ok (.ftick, rest) ∧ t.cnt = 0 ∧ t.act = s.pend ∧ t.upd = true) ∨
    (∃ rest, decode s.trace = .ok (.reset, rest) ∧ t.act = s.cfg.actReset)

/-- Who writes what: no operation changes a register that the ownership matrix gives it no write access to (R34). -/
def Obligations.OperationsWriteOnlyWhatTheyOwn : Prop :=
  ∀ (i : Instr) (s t : State), exec i s = .next t →
    (t.ti ≠ s.ti → (∃ r g b, i = .cmd r g b) ∨ i = .bgpoll ∨ i = .reset) ∧
    (t.err ≠ s.err ∨ t.pend ≠ s.pend → i = .stick ∨ i = .reset) ∧
    (t.act ≠ s.act ∨ t.cnt ≠ s.cnt ∨ t.out ≠ s.out → i = .ftick ∨ i = .reset) ∧
    (t.upd ≠ s.upd → i = .ftick ∨ i = .stick ∨ i = .reset) ∧
    (t.q ≠ s.q → (∃ x, i = .enq x) ∨ i = .bgpoll ∨ i = .stick ∨ i = .reset) ∧
    (t.idleT ≠ s.idleT → i = .bgpoll ∨ i = .stick ∨ i = .reset) ∧
    (t.lastCnt ≠ s.lastCnt → i = .stick ∨ i = .reset)

/-! ## Preemption -/

/-- Work in progress goes on by priority: while a `STICK` is in progress a micro-step leaves the background operation and the
targets alone; a micro-step of the background loop leaves every register of the other two agents alone; no micro-step touches
the generator's (R194, R34). -/
def Obligations.MicroStepsFollowPriority : Prop :=
  ∀ s : State,
    (s.slow.isSome = true → (microStep s).bg = s.bg ∧ (microStep s).ti = s.ti) ∧
    (s.slow = none → SameQuantizer s (microStep s) ∧ (microStep s).lastCnt = s.lastCnt ∧ (microStep s).slow = none) ∧
    (microStep s).act = s.act ∧ (microStep s).cnt = s.cnt ∧ (microStep s).out = s.out ∧ SameInputs s (microStep s)

/-- A fast tick between two micro-steps does not disturb a suspended slow tick past its flag: the micro-step writes the same
Pending, accumulator, environment and position whether or not the tick came first (R67, R195). -/
def Obligations.FastTickDoesNotDisturbASuspendedSlowTick : Prop :=
  ∀ (s t : State) (p : SlowPos), s.slow = some p → p ≠ .test → p ≠ .clear true → exec .ftick s = .next t →
    (microStep t).err = (microStep s).err ∧ (microStep t).pend = (microStep s).pend ∧
    (microStep t).slow = (microStep s).slow ∧ (microStep t).bg = (microStep s).bg ∧ SameEnv (microStep s) (microStep t)

/-- A boundary's set of the flag between its test and its clear is absorbed: the clear erases it and the run goes on once (R60,
vector X3). -/
def Obligations.FlagSetBetweenTestAndClearIsAbsorbed : Prop :=
  ∀ s : State, s.slow = some (.clear true) → s.cnt = 255 →
    ∃ t, exec .ftick s = .next t ∧ t.upd = true ∧ (microStep t).upd = false ∧ (microStep t).slow = some (.read .r)

/-- Every operation in progress completes within 17 micro-steps when no event comes between (R196, R206). -/
def Obligations.OperationsInProgressComplete : Prop :=
  ∀ s : State, ∃ n, n ≤ 17 ∧ (microRun n s).busy = false

/-- Every atomic execution of an operation is a preemptive one: started with nothing in progress and left alone, an operation
reaches in at most 12 micro-steps the state the atomic step gives, whether or not the queue is full, but for the arrival of a
byte at a full queue, which both granularities refuse (R64, R63; the start that registers the operation is the model's choice,
log 8). -/
def Obligations.UninterruptedRunsReachTheAtomicResult : Prop :=
  ∀ (i : Instr) (s : State), s.quiet = true → s.cfg.sched = .preemptive →
    (((∃ x, i = .enq x) → s.queueFull = false) →
      ∃ t u n, n ≤ 12 ∧ exec i s = .next t ∧ exec i (withSched .atomic s) = .next u ∧
        microRun n t = withSched .preemptive u) ∧
    ((∃ x, i = .enq x) → s.queueFull = true →
      exec i s = .refused .queueFull ∧ exec i (withSched .atomic s) = .refused .queueFull)

/-- A second operation of an agent while one is in progress is refused: under `preemptive` by R198 (the spec's decision D18);
under `atomic`, where R198 has no such case and no run reaches such a state, by the model's choice (log 22). An arrival at a
full bounded queue is refused (R171, U7, the spec's decision D17). -/
def Obligations.OverrunsAndFullQueuesAreRefused : Prop :=
  ∀ s : State,
    (s.slow.isSome = true → exec .stick s = .refused .slowOverrun) ∧
    (s.bg.isSome = true → exec .bgpoll s = .refused .backgroundOverrun ∧
      ∀ r g b, exec (.cmd r g b) s = .refused .backgroundOverrun) ∧
    (∀ n, s.cfg.qcap = some n → n ≤ s.q.length → ∀ x, exec (.enq x) s = .refused .queueFull)

/-- Events on one clock edge under `atomic`: a reset discards the others; an edge with no strobe changes nothing; a `STICK` that
finds the flag set, or set by a boundary `FTICK` of the same edge, takes the flag that very edge, its quantizer run sees the
targets from before a `CMD` of the same edge, the command is then applied, and a boundary of the edge shows the duty values
pending before it; without a `STICK` the tick and the command each have their effect (R197, R81; the order is the spec's decision
D9, log 21). -/
def Obligations.SameEdgeEventsFollowPriority : Prop :=
  ∀ (p : Ports) (s : State),
    (p.rst = true → clockEdge p s = exec .reset s) ∧
    (p.rst = false → p.ftick = false → p.stick = false → p.cmdValid = false → clockEdge p s = .next s) ∧
    (p.rst = false → p.stick = true → s.slow = none → (p.cmdValid = true → s.bg = none) → s.cfg.sched = .atomic →
      (s.upd = true ∨ (p.ftick = true ∧ s.cnt = 255)) →
        ∃ t, clockEdge p s = .next t ∧ t.upd = false ∧
          (∀ ch, t.pend.get ch = pendOf (quantOut (s.err.get ch) (s.ti.get ch))) ∧
          t.ti = (if p.cmdValid then ⟨s.memReadGamma p.cmdR, s.memReadGamma p.cmdG, s.memReadGamma p.cmdB⟩ else s.ti) ∧
          t.act = (if p.ftick = true ∧ s.cnt = 255 then s.pend else s.act)) ∧
    (p.rst = false → p.stick = false → (p.cmdValid = true → s.bg = none) → s.cfg.sched = .atomic →
        ∃ t, clockEdge p s = .next t ∧
          t.cnt.toNat = (if p.ftick then (s.cnt.toNat + 1) % 256 else s.cnt.toNat) ∧
          t.ti = (if p.cmdValid then ⟨s.memReadGamma p.cmdR, s.memReadGamma p.cmdG, s.memReadGamma p.cmdB⟩ else s.ti))
end

