-- ==== Sys2Proof/Laws/Arrays.lean ====
section
/-! SUPPORT. Reading and writing a register array: a read after a write to the same channel gives the value written, and a
write leaves the other channels alone (R20). -/

namespace Sys2Proof

variable {α : Type}

@[simp] theorem PerCh.get_set_same (x : PerCh α) (ch : Channel) (v : α) : (x.set ch v).get ch = v := by
  cases ch <;> rfl

@[simp] theorem PerCh.get_set_other (x : PerCh α) {ch c : Channel} (v : α) (h : c ≠ ch) :
    (x.set ch v).get c = x.get c := by
  cases ch <;> cases c <;> first | rfl | exact absurd rfl h

theorem PerCh.get_set (x : PerCh α) (ch c : Channel) (v : α) :
    (x.set ch v).get c = if c = ch then v else x.get c := by
  by_cases h : c = ch
  · subst h; simp
  · simp [h]

@[simp] theorem PerCh.get_ofFn (f : Channel → α) (ch : Channel) : (PerCh.ofFn f).get ch = f ch := by
  cases ch <;> rfl

@[simp] theorem PerCh.get_all (v : α) (ch : Channel) : (PerCh.all v).get ch = v := by
  cases ch <;> rfl

/-- Two arrays with the same three elements are the same array. -/
theorem PerCh.ext_get {x y : PerCh α} (h : ∀ ch, x.get ch = y.get ch) : x = y := by
  obtain ⟨xr, xg, xb⟩ := x
  obtain ⟨yr, yg, yb⟩ := y
  have hr := h .r
  have hg := h .g
  have hb := h .b
  simp only [PerCh.get] at hr hg hb
  rw [hr, hg, hb]

end Sys2Proof
end

