-- ==== Sys2Proof/Laws/Encoding.lean ====
section
/-! SUPPORT. The four bytes of a stimulus word: a word is its bytes, and a masked compare is one per byte (R82, R83). -/

namespace Sys2Proof

theorem wordOp_wordOfBytes (a b c d : Byte) : wordOp (wordOfBytes a b c d) = a := by
  apply BitVec.eq_of_getLsbD_eq
  intro i hi
  simp only [wordOp, wordOfBytes, BitVec.getLsbD_extractLsb', BitVec.getLsbD_append]
  have h1 : ¬ 24 + i < 8 := by omega
  have h2 : ¬ 24 + i - 8 < 8 := by omega
  have h3 : ¬ 24 + i - 8 - 8 < 8 := by omega
  have h4 : 24 + i - 8 - 8 - 8 = i := by omega
  simp [hi, h1, h2, h3, h4]

theorem wordArgHi_wordOfBytes (a b c d : Byte) : wordArgHi (wordOfBytes a b c d) = b := by
  apply BitVec.eq_of_getLsbD_eq
  intro i hi
  simp only [wordArgHi, wordOfBytes, BitVec.getLsbD_extractLsb', BitVec.getLsbD_append]
  have h1 : ¬ 16 + i < 8 := by omega
  have h2 : ¬ 16 + i - 8 < 8 := by omega
  have h3 : 16 + i - 8 - 8 = i := by omega
  simp [hi, h1, h2, h3]

theorem wordArgMid_wordOfBytes (a b c d : Byte) : wordArgMid (wordOfBytes a b c d) = c := by
  apply BitVec.eq_of_getLsbD_eq
  intro i hi
  simp only [wordArgMid, wordOfBytes, BitVec.getLsbD_extractLsb', BitVec.getLsbD_append]
  have h1 : ¬ 8 + i < 8 := by omega
  have h2 : 8 + i - 8 = i := by omega
  simp [hi, h1, h2]

theorem wordArgLo_wordOfBytes (a b c d : Byte) : wordArgLo (wordOfBytes a b c d) = d := by
  apply BitVec.eq_of_getLsbD_eq
  intro i hi
  simp only [wordArgLo, wordOfBytes, BitVec.getLsbD_extractLsb', BitVec.getLsbD_append]
  simp [hi]

/-- A word is the four bytes of its fields (R82). -/
theorem wordOfBytes_fields (w : StimWord) :
    wordOfBytes (wordOp w) (wordArgHi w) (wordArgMid w) (wordArgLo w) = w := by
  apply BitVec.eq_of_getLsbD_eq
  intro i hi
  simp only [wordOfBytes, wordOp, wordArgHi, wordArgMid, wordArgLo, BitVec.getLsbD_append, BitVec.getLsbD_extractLsb']
  by_cases h1 : i < 8
  · simp [h1]
  · by_cases h2 : i < 16
    · have a : i - 8 < 8 := by omega
      have e : 8 + (i - 8) = i := by omega
      simp [h1, a, e]
    · by_cases h3 : i < 24
      · have a : ¬ i - 8 < 8 := by omega
        have b : i - 8 - 8 < 8 := by omega
        have e : 16 + (i - 8 - 8) = i := by omega
        simp [h1, a, b, e]
      · have a : ¬ i - 8 < 8 := by omega
        have b : ¬ i - 8 - 8 < 8 := by omega
        have c : i - 8 - 8 - 8 < 8 := by omega
        have e : 24 + (i - 8 - 8 - 8) = i := by omega
        simp [h1, a, b, c, e]

/-- Two words are equal when their four bytes are. -/
theorem word_eq_iff (v w : StimWord) : v = w ↔
    wordOp v = wordOp w ∧ wordArgHi v = wordArgHi w ∧ wordArgMid v = wordArgMid w ∧ wordArgLo v = wordArgLo w := by
  constructor
  · rintro rfl
    simp
  · rintro ⟨h1, h2, h3, h4⟩
    rw [← wordOfBytes_fields v, ← wordOfBytes_fields w, h1, h2, h3, h4]

theorem wordOp_and (v w : StimWord) : wordOp (v &&& w) = wordOp v &&& wordOp w := by
  simp [wordOp, BitVec.extractLsb'_and]

theorem wordArgHi_and (v w : StimWord) : wordArgHi (v &&& w) = wordArgHi v &&& wordArgHi w := by
  simp [wordArgHi, BitVec.extractLsb'_and]

theorem wordArgMid_and (v w : StimWord) : wordArgMid (v &&& w) = wordArgMid v &&& wordArgMid w := by
  simp [wordArgMid, BitVec.extractLsb'_and]

theorem wordArgLo_and (v w : StimWord) : wordArgLo (v &&& w) = wordArgLo v &&& wordArgLo w := by
  simp [wordArgLo, BitVec.extractLsb'_and]

/-- A row spells a word when each byte of the word, masked, is the row's (R83). -/
theorem OpRow.spells_iff (row : OpRow) (w : StimWord) : row.spells w = true ↔
    wordOp w &&& wordOp row.maskBits = wordOp row.matchBits ∧
    wordArgHi w &&& wordArgHi row.maskBits = wordArgHi row.matchBits ∧
    wordArgMid w &&& wordArgMid row.maskBits = wordArgMid row.matchBits ∧
    wordArgLo w &&& wordArgLo row.maskBits = wordArgLo row.matchBits := by
  simp only [OpRow.spells, decide_eq_true_eq, word_eq_iff, wordOp_and, wordArgHi_and, wordArgMid_and, wordArgLo_and]

/-- The bytes of an operation: its opcode and its three argument bytes (R83). -/
theorem encode_wordOfBytes {i : Instr} {a b c d : Byte} (h : encodeWord i = wordOfBytes a b c d) :
    encode i = [a, b, c, d] := by
  simp only [encode, bytesOfWord, h, wordOp_wordOfBytes, wordArgHi_wordOfBytes, wordArgMid_wordOfBytes,
    wordArgLo_wordOfBytes]

end Sys2Proof
end

