-- ==== Sys2Proof/Laws/State.lean ====
section
/-! SUPPORT. One lemma per field per update of the state, true by `rfl`: no later proof unfolds a record update. -/

namespace Sys2Proof.Machine

open Sys2Proof

section
variable (s : State) (v : PerCh Intensity)
@[simp] theorem State.setTi_ti : (s.setTi v).ti = v := rfl
@[simp] theorem State.setTi_err : (s.setTi v).err = s.err := rfl
@[simp] theorem State.setTi_pend : (s.setTi v).pend = s.pend := rfl
@[simp] theorem State.setTi_act : (s.setTi v).act = s.act := rfl
@[simp] theorem State.setTi_cnt : (s.setTi v).cnt = s.cnt := rfl
@[simp] theorem State.setTi_upd : (s.setTi v).upd = s.upd := rfl
@[simp] theorem State.setTi_out : (s.setTi v).out = s.out := rfl
@[simp] theorem State.setTi_q : (s.setTi v).q = s.q := rfl
@[simp] theorem State.setTi_idleT : (s.setTi v).idleT = s.idleT := rfl
@[simp] theorem State.setTi_lastCnt : (s.setTi v).lastCnt = s.lastCnt := rfl
@[simp] theorem State.setTi_slow : (s.setTi v).slow = s.slow := rfl
@[simp] theorem State.setTi_bg : (s.setTi v).bg = s.bg := rfl
@[simp] theorem State.setTi_cfg : (s.setTi v).cfg = s.cfg := rfl
@[simp] theorem State.setTi_trace : (s.setTi v).trace = s.trace := rfl
@[simp] theorem State.setTi_pos : (s.setTi v).pos = s.pos := rfl
@[simp] theorem State.setTi_gaps : (s.setTi v).gaps = s.gaps := rfl
end

section
variable (s : State) (v : PerCh Int)
@[simp] theorem State.setErr_ti : (s.setErr v).ti = s.ti := rfl
@[simp] theorem State.setErr_err : (s.setErr v).err = v := rfl
@[simp] theorem State.setErr_pend : (s.setErr v).pend = s.pend := rfl
@[simp] theorem State.setErr_act : (s.setErr v).act = s.act := rfl
@[simp] theorem State.setErr_cnt : (s.setErr v).cnt = s.cnt := rfl
@[simp] theorem State.setErr_upd : (s.setErr v).upd = s.upd := rfl
@[simp] theorem State.setErr_out : (s.setErr v).out = s.out := rfl
@[simp] theorem State.setErr_q : (s.setErr v).q = s.q := rfl
@[simp] theorem State.setErr_idleT : (s.setErr v).idleT = s.idleT := rfl
@[simp] theorem State.setErr_lastCnt : (s.setErr v).lastCnt = s.lastCnt := rfl
@[simp] theorem State.setErr_slow : (s.setErr v).slow = s.slow := rfl
@[simp] theorem State.setErr_bg : (s.setErr v).bg = s.bg := rfl
@[simp] theorem State.setErr_cfg : (s.setErr v).cfg = s.cfg := rfl
@[simp] theorem State.setErr_trace : (s.setErr v).trace = s.trace := rfl
@[simp] theorem State.setErr_pos : (s.setErr v).pos = s.pos := rfl
@[simp] theorem State.setErr_gaps : (s.setErr v).gaps = s.gaps := rfl
end

section
variable (s : State) (v : PerCh Byte)
@[simp] theorem State.setPend_ti : (s.setPend v).ti = s.ti := rfl
@[simp] theorem State.setPend_err : (s.setPend v).err = s.err := rfl
@[simp] theorem State.setPend_pend : (s.setPend v).pend = v := rfl
@[simp] theorem State.setPend_act : (s.setPend v).act = s.act := rfl
@[simp] theorem State.setPend_cnt : (s.setPend v).cnt = s.cnt := rfl
@[simp] theorem State.setPend_upd : (s.setPend v).upd = s.upd := rfl
@[simp] theorem State.setPend_out : (s.setPend v).out = s.out := rfl
@[simp] theorem State.setPend_q : (s.setPend v).q = s.q := rfl
@[simp] theorem State.setPend_idleT : (s.setPend v).idleT = s.idleT := rfl
@[simp] theorem State.setPend_lastCnt : (s.setPend v).lastCnt = s.lastCnt := rfl
@[simp] theorem State.setPend_slow : (s.setPend v).slow = s.slow := rfl
@[simp] theorem State.setPend_bg : (s.setPend v).bg = s.bg := rfl
@[simp] theorem State.setPend_cfg : (s.setPend v).cfg = s.cfg := rfl
@[simp] theorem State.setPend_trace : (s.setPend v).trace = s.trace := rfl
@[simp] theorem State.setPend_pos : (s.setPend v).pos = s.pos := rfl
@[simp] theorem State.setPend_gaps : (s.setPend v).gaps = s.gaps := rfl
end

section
variable (s : State) (v : PerCh Byte)
@[simp] theorem State.setAct_ti : (s.setAct v).ti = s.ti := rfl
@[simp] theorem State.setAct_err : (s.setAct v).err = s.err := rfl
@[simp] theorem State.setAct_pend : (s.setAct v).pend = s.pend := rfl
@[simp] theorem State.setAct_act : (s.setAct v).act = v := rfl
@[simp] theorem State.setAct_cnt : (s.setAct v).cnt = s.cnt := rfl
@[simp] theorem State.setAct_upd : (s.setAct v).upd = s.upd := rfl
@[simp] theorem State.setAct_out : (s.setAct v).out = s.out := rfl
@[simp] theorem State.setAct_q : (s.setAct v).q = s.q := rfl
@[simp] theorem State.setAct_idleT : (s.setAct v).idleT = s.idleT := rfl
@[simp] theorem State.setAct_lastCnt : (s.setAct v).lastCnt = s.lastCnt := rfl
@[simp] theorem State.setAct_slow : (s.setAct v).slow = s.slow := rfl
@[simp] theorem State.setAct_bg : (s.setAct v).bg = s.bg := rfl
@[simp] theorem State.setAct_cfg : (s.setAct v).cfg = s.cfg := rfl
@[simp] theorem State.setAct_trace : (s.setAct v).trace = s.trace := rfl
@[simp] theorem State.setAct_pos : (s.setAct v).pos = s.pos := rfl
@[simp] theorem State.setAct_gaps : (s.setAct v).gaps = s.gaps := rfl
end

section
variable (s : State) (v : Byte)
@[simp] theorem State.setCnt_ti : (s.setCnt v).ti = s.ti := rfl
@[simp] theorem State.setCnt_err : (s.setCnt v).err = s.err := rfl
@[simp] theorem State.setCnt_pend : (s.setCnt v).pend = s.pend := rfl
@[simp] theorem State.setCnt_act : (s.setCnt v).act = s.act := rfl
@[simp] theorem State.setCnt_cnt : (s.setCnt v).cnt = v := rfl
@[simp] theorem State.setCnt_upd : (s.setCnt v).upd = s.upd := rfl
@[simp] theorem State.setCnt_out : (s.setCnt v).out = s.out := rfl
@[simp] theorem State.setCnt_q : (s.setCnt v).q = s.q := rfl
@[simp] theorem State.setCnt_idleT : (s.setCnt v).idleT = s.idleT := rfl
@[simp] theorem State.setCnt_lastCnt : (s.setCnt v).lastCnt = s.lastCnt := rfl
@[simp] theorem State.setCnt_slow : (s.setCnt v).slow = s.slow := rfl
@[simp] theorem State.setCnt_bg : (s.setCnt v).bg = s.bg := rfl
@[simp] theorem State.setCnt_cfg : (s.setCnt v).cfg = s.cfg := rfl
@[simp] theorem State.setCnt_trace : (s.setCnt v).trace = s.trace := rfl
@[simp] theorem State.setCnt_pos : (s.setCnt v).pos = s.pos := rfl
@[simp] theorem State.setCnt_gaps : (s.setCnt v).gaps = s.gaps := rfl
end

section
variable (s : State) (v : Bool)
@[simp] theorem State.setUpd_ti : (s.setUpd v).ti = s.ti := rfl
@[simp] theorem State.setUpd_err : (s.setUpd v).err = s.err := rfl
@[simp] theorem State.setUpd_pend : (s.setUpd v).pend = s.pend := rfl
@[simp] theorem State.setUpd_act : (s.setUpd v).act = s.act := rfl
@[simp] theorem State.setUpd_cnt : (s.setUpd v).cnt = s.cnt := rfl
@[simp] theorem State.setUpd_upd : (s.setUpd v).upd = v := rfl
@[simp] theorem State.setUpd_out : (s.setUpd v).out = s.out := rfl
@[simp] theorem State.setUpd_q : (s.setUpd v).q = s.q := rfl
@[simp] theorem State.setUpd_idleT : (s.setUpd v).idleT = s.idleT := rfl
@[simp] theorem State.setUpd_lastCnt : (s.setUpd v).lastCnt = s.lastCnt := rfl
@[simp] theorem State.setUpd_slow : (s.setUpd v).slow = s.slow := rfl
@[simp] theorem State.setUpd_bg : (s.setUpd v).bg = s.bg := rfl
@[simp] theorem State.setUpd_cfg : (s.setUpd v).cfg = s.cfg := rfl
@[simp] theorem State.setUpd_trace : (s.setUpd v).trace = s.trace := rfl
@[simp] theorem State.setUpd_pos : (s.setUpd v).pos = s.pos := rfl
@[simp] theorem State.setUpd_gaps : (s.setUpd v).gaps = s.gaps := rfl
end

section
variable (s : State) (v : PerCh Switch)
@[simp] theorem State.setOut_ti : (s.setOut v).ti = s.ti := rfl
@[simp] theorem State.setOut_err : (s.setOut v).err = s.err := rfl
@[simp] theorem State.setOut_pend : (s.setOut v).pend = s.pend := rfl
@[simp] theorem State.setOut_act : (s.setOut v).act = s.act := rfl
@[simp] theorem State.setOut_cnt : (s.setOut v).cnt = s.cnt := rfl
@[simp] theorem State.setOut_upd : (s.setOut v).upd = s.upd := rfl
@[simp] theorem State.setOut_out : (s.setOut v).out = v := rfl
@[simp] theorem State.setOut_q : (s.setOut v).q = s.q := rfl
@[simp] theorem State.setOut_idleT : (s.setOut v).idleT = s.idleT := rfl
@[simp] theorem State.setOut_lastCnt : (s.setOut v).lastCnt = s.lastCnt := rfl
@[simp] theorem State.setOut_slow : (s.setOut v).slow = s.slow := rfl
@[simp] theorem State.setOut_bg : (s.setOut v).bg = s.bg := rfl
@[simp] theorem State.setOut_cfg : (s.setOut v).cfg = s.cfg := rfl
@[simp] theorem State.setOut_trace : (s.setOut v).trace = s.trace := rfl
@[simp] theorem State.setOut_pos : (s.setOut v).pos = s.pos := rfl
@[simp] theorem State.setOut_gaps : (s.setOut v).gaps = s.gaps := rfl
end

section
variable (s : State) (v : List Byte)
@[simp] theorem State.setQ_ti : (s.setQ v).ti = s.ti := rfl
@[simp] theorem State.setQ_err : (s.setQ v).err = s.err := rfl
@[simp] theorem State.setQ_pend : (s.setQ v).pend = s.pend := rfl
@[simp] theorem State.setQ_act : (s.setQ v).act = s.act := rfl
@[simp] theorem State.setQ_cnt : (s.setQ v).cnt = s.cnt := rfl
@[simp] theorem State.setQ_upd : (s.setQ v).upd = s.upd := rfl
@[simp] theorem State.setQ_out : (s.setQ v).out = s.out := rfl
@[simp] theorem State.setQ_q : (s.setQ v).q = v := rfl
@[simp] theorem State.setQ_idleT : (s.setQ v).idleT = s.idleT := rfl
@[simp] theorem State.setQ_lastCnt : (s.setQ v).lastCnt = s.lastCnt := rfl
@[simp] theorem State.setQ_slow : (s.setQ v).slow = s.slow := rfl
@[simp] theorem State.setQ_bg : (s.setQ v).bg = s.bg := rfl
@[simp] theorem State.setQ_cfg : (s.setQ v).cfg = s.cfg := rfl
@[simp] theorem State.setQ_trace : (s.setQ v).trace = s.trace := rfl
@[simp] theorem State.setQ_pos : (s.setQ v).pos = s.pos := rfl
@[simp] theorem State.setQ_gaps : (s.setQ v).gaps = s.gaps := rfl
end

section
variable (s : State) (v : Nat)
@[simp] theorem State.setIdleT_ti : (s.setIdleT v).ti = s.ti := rfl
@[simp] theorem State.setIdleT_err : (s.setIdleT v).err = s.err := rfl
@[simp] theorem State.setIdleT_pend : (s.setIdleT v).pend = s.pend := rfl
@[simp] theorem State.setIdleT_act : (s.setIdleT v).act = s.act := rfl
@[simp] theorem State.setIdleT_cnt : (s.setIdleT v).cnt = s.cnt := rfl
@[simp] theorem State.setIdleT_upd : (s.setIdleT v).upd = s.upd := rfl
@[simp] theorem State.setIdleT_out : (s.setIdleT v).out = s.out := rfl
@[simp] theorem State.setIdleT_q : (s.setIdleT v).q = s.q := rfl
@[simp] theorem State.setIdleT_idleT : (s.setIdleT v).idleT = v := rfl
@[simp] theorem State.setIdleT_lastCnt : (s.setIdleT v).lastCnt = s.lastCnt := rfl
@[simp] theorem State.setIdleT_slow : (s.setIdleT v).slow = s.slow := rfl
@[simp] theorem State.setIdleT_bg : (s.setIdleT v).bg = s.bg := rfl
@[simp] theorem State.setIdleT_cfg : (s.setIdleT v).cfg = s.cfg := rfl
@[simp] theorem State.setIdleT_trace : (s.setIdleT v).trace = s.trace := rfl
@[simp] theorem State.setIdleT_pos : (s.setIdleT v).pos = s.pos := rfl
@[simp] theorem State.setIdleT_gaps : (s.setIdleT v).gaps = s.gaps := rfl
end

section
variable (s : State) (v : Nat)
@[simp] theorem State.setLastCnt_ti : (s.setLastCnt v).ti = s.ti := rfl
@[simp] theorem State.setLastCnt_err : (s.setLastCnt v).err = s.err := rfl
@[simp] theorem State.setLastCnt_pend : (s.setLastCnt v).pend = s.pend := rfl
@[simp] theorem State.setLastCnt_act : (s.setLastCnt v).act = s.act := rfl
@[simp] theorem State.setLastCnt_cnt : (s.setLastCnt v).cnt = s.cnt := rfl
@[simp] theorem State.setLastCnt_upd : (s.setLastCnt v).upd = s.upd := rfl
@[simp] theorem State.setLastCnt_out : (s.setLastCnt v).out = s.out := rfl
@[simp] theorem State.setLastCnt_q : (s.setLastCnt v).q = s.q := rfl
@[simp] theorem State.setLastCnt_idleT : (s.setLastCnt v).idleT = s.idleT := rfl
@[simp] theorem State.setLastCnt_lastCnt : (s.setLastCnt v).lastCnt = v := rfl
@[simp] theorem State.setLastCnt_slow : (s.setLastCnt v).slow = s.slow := rfl
@[simp] theorem State.setLastCnt_bg : (s.setLastCnt v).bg = s.bg := rfl
@[simp] theorem State.setLastCnt_cfg : (s.setLastCnt v).cfg = s.cfg := rfl
@[simp] theorem State.setLastCnt_trace : (s.setLastCnt v).trace = s.trace := rfl
@[simp] theorem State.setLastCnt_pos : (s.setLastCnt v).pos = s.pos := rfl
@[simp] theorem State.setLastCnt_gaps : (s.setLastCnt v).gaps = s.gaps := rfl
end

section
variable (s : State) (v : Option SlowPos)
@[simp] theorem State.setSlow_ti : (s.setSlow v).ti = s.ti := rfl
@[simp] theorem State.setSlow_err : (s.setSlow v).err = s.err := rfl
@[simp] theorem State.setSlow_pend : (s.setSlow v).pend = s.pend := rfl
@[simp] theorem State.setSlow_act : (s.setSlow v).act = s.act := rfl
@[simp] theorem State.setSlow_cnt : (s.setSlow v).cnt = s.cnt := rfl
@[simp] theorem State.setSlow_upd : (s.setSlow v).upd = s.upd := rfl
@[simp] theorem State.setSlow_out : (s.setSlow v).out = s.out := rfl
@[simp] theorem State.setSlow_q : (s.setSlow v).q = s.q := rfl
@[simp] theorem State.setSlow_idleT : (s.setSlow v).idleT = s.idleT := rfl
@[simp] theorem State.setSlow_lastCnt : (s.setSlow v).lastCnt = s.lastCnt := rfl
@[simp] theorem State.setSlow_slow : (s.setSlow v).slow = v := rfl
@[simp] theorem State.setSlow_bg : (s.setSlow v).bg = s.bg := rfl
@[simp] theorem State.setSlow_cfg : (s.setSlow v).cfg = s.cfg := rfl
@[simp] theorem State.setSlow_trace : (s.setSlow v).trace = s.trace := rfl
@[simp] theorem State.setSlow_pos : (s.setSlow v).pos = s.pos := rfl
@[simp] theorem State.setSlow_gaps : (s.setSlow v).gaps = s.gaps := rfl
end

section
variable (s : State) (v : Option BgPos)
@[simp] theorem State.setBg_ti : (s.setBg v).ti = s.ti := rfl
@[simp] theorem State.setBg_err : (s.setBg v).err = s.err := rfl
@[simp] theorem State.setBg_pend : (s.setBg v).pend = s.pend := rfl
@[simp] theorem State.setBg_act : (s.setBg v).act = s.act := rfl
@[simp] theorem State.setBg_cnt : (s.setBg v).cnt = s.cnt := rfl
@[simp] theorem State.setBg_upd : (s.setBg v).upd = s.upd := rfl
@[simp] theorem State.setBg_out : (s.setBg v).out = s.out := rfl
@[simp] theorem State.setBg_q : (s.setBg v).q = s.q := rfl
@[simp] theorem State.setBg_idleT : (s.setBg v).idleT = s.idleT := rfl
@[simp] theorem State.setBg_lastCnt : (s.setBg v).lastCnt = s.lastCnt := rfl
@[simp] theorem State.setBg_slow : (s.setBg v).slow = s.slow := rfl
@[simp] theorem State.setBg_bg : (s.setBg v).bg = v := rfl
@[simp] theorem State.setBg_cfg : (s.setBg v).cfg = s.cfg := rfl
@[simp] theorem State.setBg_trace : (s.setBg v).trace = s.trace := rfl
@[simp] theorem State.setBg_pos : (s.setBg v).pos = s.pos := rfl
@[simp] theorem State.setBg_gaps : (s.setBg v).gaps = s.gaps := rfl
end

section
variable (s : State) (v : List Byte)
@[simp] theorem State.setTrace_ti : (s.setTrace v).ti = s.ti := rfl
@[simp] theorem State.setTrace_err : (s.setTrace v).err = s.err := rfl
@[simp] theorem State.setTrace_pend : (s.setTrace v).pend = s.pend := rfl
@[simp] theorem State.setTrace_act : (s.setTrace v).act = s.act := rfl
@[simp] theorem State.setTrace_cnt : (s.setTrace v).cnt = s.cnt := rfl
@[simp] theorem State.setTrace_upd : (s.setTrace v).upd = s.upd := rfl
@[simp] theorem State.setTrace_out : (s.setTrace v).out = s.out := rfl
@[simp] theorem State.setTrace_q : (s.setTrace v).q = s.q := rfl
@[simp] theorem State.setTrace_idleT : (s.setTrace v).idleT = s.idleT := rfl
@[simp] theorem State.setTrace_lastCnt : (s.setTrace v).lastCnt = s.lastCnt := rfl
@[simp] theorem State.setTrace_slow : (s.setTrace v).slow = s.slow := rfl
@[simp] theorem State.setTrace_bg : (s.setTrace v).bg = s.bg := rfl
@[simp] theorem State.setTrace_cfg : (s.setTrace v).cfg = s.cfg := rfl
@[simp] theorem State.setTrace_trace : (s.setTrace v).trace = v := rfl
@[simp] theorem State.setTrace_pos : (s.setTrace v).pos = s.pos := rfl
@[simp] theorem State.setTrace_gaps : (s.setTrace v).gaps = s.gaps := rfl
end

section
variable (s : State) (v : Nat)
@[simp] theorem State.setPos_ti : (s.setPos v).ti = s.ti := rfl
@[simp] theorem State.setPos_err : (s.setPos v).err = s.err := rfl
@[simp] theorem State.setPos_pend : (s.setPos v).pend = s.pend := rfl
@[simp] theorem State.setPos_act : (s.setPos v).act = s.act := rfl
@[simp] theorem State.setPos_cnt : (s.setPos v).cnt = s.cnt := rfl
@[simp] theorem State.setPos_upd : (s.setPos v).upd = s.upd := rfl
@[simp] theorem State.setPos_out : (s.setPos v).out = s.out := rfl
@[simp] theorem State.setPos_q : (s.setPos v).q = s.q := rfl
@[simp] theorem State.setPos_idleT : (s.setPos v).idleT = s.idleT := rfl
@[simp] theorem State.setPos_lastCnt : (s.setPos v).lastCnt = s.lastCnt := rfl
@[simp] theorem State.setPos_slow : (s.setPos v).slow = s.slow := rfl
@[simp] theorem State.setPos_bg : (s.setPos v).bg = s.bg := rfl
@[simp] theorem State.setPos_cfg : (s.setPos v).cfg = s.cfg := rfl
@[simp] theorem State.setPos_trace : (s.setPos v).trace = s.trace := rfl
@[simp] theorem State.setPos_pos : (s.setPos v).pos = v := rfl
@[simp] theorem State.setPos_gaps : (s.setPos v).gaps = s.gaps := rfl
end

section
variable (s : State) (v : List Nat)
@[simp] theorem State.setGaps_ti : (s.setGaps v).ti = s.ti := rfl
@[simp] theorem State.setGaps_err : (s.setGaps v).err = s.err := rfl
@[simp] theorem State.setGaps_pend : (s.setGaps v).pend = s.pend := rfl
@[simp] theorem State.setGaps_act : (s.setGaps v).act = s.act := rfl
@[simp] theorem State.setGaps_cnt : (s.setGaps v).cnt = s.cnt := rfl
@[simp] theorem State.setGaps_upd : (s.setGaps v).upd = s.upd := rfl
@[simp] theorem State.setGaps_out : (s.setGaps v).out = s.out := rfl
@[simp] theorem State.setGaps_q : (s.setGaps v).q = s.q := rfl
@[simp] theorem State.setGaps_idleT : (s.setGaps v).idleT = s.idleT := rfl
@[simp] theorem State.setGaps_lastCnt : (s.setGaps v).lastCnt = s.lastCnt := rfl
@[simp] theorem State.setGaps_slow : (s.setGaps v).slow = s.slow := rfl
@[simp] theorem State.setGaps_bg : (s.setGaps v).bg = s.bg := rfl
@[simp] theorem State.setGaps_cfg : (s.setGaps v).cfg = s.cfg := rfl
@[simp] theorem State.setGaps_trace : (s.setGaps v).trace = s.trace := rfl
@[simp] theorem State.setGaps_pos : (s.setGaps v).pos = s.pos := rfl
@[simp] theorem State.setGaps_gaps : (s.setGaps v).gaps = v := rfl
end

end Sys2Proof.Machine
end

