-- ==== Sys2Proof/Laws/Ops.lean ====
section
/-! SUPPORT. What the shared operations do: the gamma read, the queue, the reset, and the arithmetic of one quantizer step. -/

namespace Sys2Proof.Machine

open Sys2Proof

/-- The gamma read depends on the configuration alone (R111). -/
theorem State.memReadGamma_congr {s t : State} (h : t.cfg = s.cfg) (v : Byte) : t.memReadGamma v = s.memReadGamma v := by
  simp only [State.memReadGamma, h]

theorem State.lookupMessage_congr {s t : State} (h : t.cfg = s.cfg) (r g b : Byte) :
    t.lookupMessage r g b = s.lookupMessage r g b := by
  simp only [State.lookupMessage, State.memReadGamma_congr h]

/-- Everything a reset does: the configuration and the trace stay, every other field gets its reset value (R220). -/
theorem State.applyReset_eq (s : State) : s.applyReset =
    { s with
      ti := s.cfg.tiReset, err := PerCh.all 0, pend := s.cfg.pendReset, act := s.cfg.actReset, cnt := s.cfg.cntReset,
      upd := s.cfg.updReset, out := s.cfg.outReset, q := [], idleT := 0, lastCnt := 0, slow := none, bg := none } := rfl

/-- An operation in progress is a suspended or running `STICK` or background operation. -/
theorem State.busy_eq_false {s : State} : s.busy = false ↔ s.slow = none ∧ s.bg = none := by
  cases hs : s.slow <;> cases hb : s.bg <;> simp [State.busy, hs, hb]

theorem State.quiet_iff {s : State} : s.quiet = true ↔ s.slow = none ∧ s.bg = none := by
  rw [State.quiet, Bool.not_eq_true', State.busy_eq_false]

theorem State.queueFull_iff {s : State} :
    s.queueFull = true ↔ ∃ n, s.cfg.qcap = some n ∧ n ≤ s.qlen := by
  cases h : s.cfg.qcap <;> simp [State.queueFull, h]

/-- The range of the threshold as numbers (R174). -/
theorem timeoutOk_iff (c : Config) : c.timeoutOk = true ↔ 1 ≤ c.timeoutTicks ∧ c.timeoutTicks < 2 ^ c.idleW := by
  rw [Config.timeoutOk, Bool.and_eq_true, decide_eq_true_iff, decide_eq_true_iff, Config.idleMod,
    ← Nat.lt_iff_le_pred (Nat.two_pow_pos _)]

/-- The range of `ERR_W` as a number (R10). -/
theorem errWOk_iff (c : Config) : c.errWOk = true ↔ 6 ≤ c.errW := by simp [Config.errWOk]

/-- The ranges of a well-formed configuration (R10, R174). -/
theorem configWf_iff (c : Config) :
    c.wf = true ↔ c.timeoutOk = true ∧ (∀ n, c.qcap = some n → 3 ≤ n) ∧ 6 ≤ c.errW := by
  rw [Config.wf, Bool.and_eq_true, Bool.and_eq_true, errWOk_iff, and_assoc]
  cases h : c.qcap <;> simp [Config.qcapOk, h]

/-- The counter's successor as a number (R26). -/
theorem nextCount_toNat (c : Byte) : (nextCount c).toNat = (c.toNat + 1) % 256 := by
  simp [nextCount]

/-- The idle timer stays in its width (R187). -/
theorem nextIdle_lt (c : Config) (n : Nat) : nextIdle c n < 2 ^ c.idleW := Nat.mod_lt _ (Nat.two_pow_pos _)

/-- The idle timer counts exactly until its width ends (R187). -/
theorem nextIdle_eq {c : Config} {n : Nat} (h : n + 1 < 2 ^ c.idleW) : nextIdle c n = n + 1 := Nat.mod_eq_of_lt h

theorem roundsUp_iff (e : Int) : roundsUp e = true ↔ 0 ≤ e := by simp [roundsUp]

theorem floorValue_eq (t : Intensity) : floorValue t = t.toNat / 16 := by
  simp [floorValue, Nat.shiftRight_eq_div_pow]

/-- The quantizer's output as a number, 0..256 (R142). -/
theorem quantOut_toNat (e : Int) (t : Intensity) :
    (quantOut e t).toNat = if 0 ≤ e then t.toNat / 16 + 1 else t.toNat / 16 := by
  have ht := t.isLt
  by_cases h : 0 ≤ e
  · simp only [quantOut, (roundsUp_iff e).2 h, if_true, floorValue_eq, BitVec.toNat_ofNat, h]; omega
  · have h' : roundsUp e = false := by simpa [roundsUp] using h
    simp only [quantOut, h', floorValue_eq, BitVec.toNat_ofNat, h, if_false, Bool.false_eq_true]; omega

/-- What is stored in Pending, as a number (R143). -/
theorem pendOf_toNat (out : QuantOut) : (pendOf out).toNat = out.toNat % 256 := by
  simp [pendOf]

/-- A stored accumulator fits its width (R12, R22). -/
theorem narrowErr_fits (w : Nat) (v : Int) : -2 ^ (w - 1) ≤ narrowErr w v ∧ narrowErr w v < 2 ^ (w - 1) := by
  cases w with
  | zero => simp [narrowErr, Int.bmod_one]
  | succ w =>
    have h1 := Int.le_bmod (x := v) (m := 2 ^ (w + 1)) (Nat.two_pow_pos _)
    have h2 := Int.bmod_lt (x := v) (m := 2 ^ (w + 1)) (Nat.two_pow_pos _)
    simp only [narrowErr, Nat.add_sub_cancel]
    generalize v.bmod (2 ^ (w + 1)) = r at h1 h2 ⊢
    push_cast [pow_succ] at h1 h2
    constructor <;> omega

/-- A sum that fits its width is stored as it is (R12, R22). -/
theorem narrowErr_eq {w : Nat} {v : Int} (h0 : 1 ≤ w) (h1 : -2 ^ (w - 1) ≤ v) (h2 : v < 2 ^ (w - 1)) : narrowErr w v = v := by
  obtain ⟨w, rfl⟩ : ∃ k, w = k + 1 := ⟨w - 1, by omega⟩
  simp only [Nat.add_sub_cancel] at h1 h2
  have hp : (0 : Int) < 2 ^ w := by positivity
  apply Int.bmod_eq_of_le <;> push_cast [pow_succ] <;> omega

/-- Six bits and more hold −32..31 (R10, R145). -/
theorem errWidth_room {w : Nat} (h : 6 ≤ w) : (32 : Int) ≤ 2 ^ (w - 1) := by
  have : (2 : Int) ^ 5 ≤ 2 ^ (w - 1) := pow_le_pow_right₀ (by norm_num) (by omega)
  simpa using this

/-- The error update never wraps on an accumulator that fits its width, when its output is the one the accumulator asks for:
the stored value is the exact sum (R144, R145). -/
theorem errOf_eq {w : Nat} {e : Int} (hw : 6 ≤ w) (h1 : -2 ^ (w - 1) ≤ e) (h2 : e < 2 ^ (w - 1)) (t : Intensity) :
    errOf w e t (quantOut e t) = e + t.toNat - 16 * (quantOut e t).toNat := by
  have ht := t.isLt
  have hq := quantOut_toNat e t
  have hr := errWidth_room hw
  have hs : e + (t.toNat : Int) - (outScaled (quantOut e t) : Int) = e + t.toNat - 16 * (quantOut e t).toNat := by
    simp only [outScaled, Nat.shiftLeft_eq]; push_cast; ring
  rw [errOf, hs, narrowErr_eq (by omega)] <;> split at hq <;> rw [hq] <;> push_cast <;> omega

end Sys2Proof.Machine
end

