-- ==== Sys2Proof/Machine/Fixtures.lean ====
section
/-! DEFINITION. The two gamma tables the spec defines for its own vectors and programs (40_gamma R114). Neither is the hardware's
table, which is a free value (R113, log 2): no operation and no reset value refers to them. -/

namespace Sys2Proof.Machine

open Sys2Proof

/-- `GAMMA_LIN16[v] = 16 * v` (R114): linear, so no gamma correction at all. -/
def gammaLin16 : Vector Intensity 256 := Vector.ofFn fun v => BitVec.ofNat 12 (16 * v.val)

/-- `GAMMA_HI15[v] = 16 * v + 15` (R114): out of contract at its last entry. -/
def gammaHi15 : Vector Intensity 256 := Vector.ofFn fun v => BitVec.ofNat 12 (16 * v.val + 15)

end Sys2Proof.Machine
end

