-- ==== Sys2Proof/Laws/Fixtures.lean ====
section
/-! SUPPORT. What the spec says of its two gamma tables: every entry as a number, and which entries are in contract (R114). -/

namespace Sys2Proof.Machine

open Sys2Proof Sys2Proof.Safety

theorem gammaLin16_toNat {v : Nat} (h : v < 256) : (gammaLin16[v]'h).toNat = 16 * v := by
  simp [gammaLin16]
  omega

theorem gammaHi15_toNat {v : Nat} (h : v < 256) : (gammaHi15[v]'h).toNat = 16 * v + 15 := by
  simp [gammaHi15]
  omega

/-- A lookup in `GAMMA_LIN16` (R110, R114). -/
theorem State.memReadGamma_lin16 {s : State} (h : s.cfg.gamma = gammaLin16) (v : Byte) :
    s.memReadGamma v = BitVec.ofNat 12 (16 * v.toNat) := by
  simp [State.memReadGamma, h, gammaLin16]

/-- A lookup in `GAMMA_HI15` (R110, R114). -/
theorem State.memReadGamma_hi15 {s : State} (h : s.cfg.gamma = gammaHi15) (v : Byte) :
    s.memReadGamma v = BitVec.ofNat 12 (16 * v.toNat + 15) := by
  simp [State.memReadGamma, h, gammaHi15]

/-- `GAMMA_LIN16` satisfies `GAMMA_IN_CONTRACT` (R114). -/
theorem gammaLin16_inContract {c : Config} (h : c.gamma = gammaLin16) : GammaInContract c := by
  intro v hv
  simp only [h, gammaLin16_toNat hv]
  omega

/-- An entry of `GAMMA_HI15` is out of contract at index 255 and at no other (R114). -/
theorem gammaHi15_outOfContract_iff {v : Nat} (h : v < 256) : 4080 < (gammaHi15[v]'h).toNat ↔ v = 255 := by
  rw [gammaHi15_toNat h]
  omega

/-- `GAMMA_HI15` violates `GAMMA_IN_CONTRACT` (R114). -/
theorem gammaHi15_not_inContract {c : Config} (h : c.gamma = gammaHi15) : ¬ GammaInContract c := by
  intro hc
  have h1 := hc 255 (by omega)
  simp only [h, gammaHi15_toNat] at h1
  omega

end Sys2Proof.Machine
end

