-- ==== Sys2Proof/Laws/Generator.lean ====
section
/-! SUPPORT. Everything one fast tick does (R120 to R123). -/

namespace Sys2Proof.Machine

open Sys2Proof

/-- What a fast tick leaves alone (R120 "never touched", R130). -/
theorem fastTick_frame (s : State) :
    (fastTick s).ti = s.ti ∧ (fastTick s).err = s.err ∧ (fastTick s).pend = s.pend ∧ (fastTick s).q = s.q ∧
    (fastTick s).idleT = s.idleT ∧ (fastTick s).lastCnt = s.lastCnt ∧ (fastTick s).slow = s.slow ∧
    (fastTick s).bg = s.bg ∧ (fastTick s).cfg = s.cfg ∧ (fastTick s).trace = s.trace ∧ (fastTick s).pos = s.pos ∧
    (fastTick s).gaps = s.gaps := by
  simp only [fastTick, compareChannels, boundaryActions]
  split <;> simp [startCycle, raiseUpd, advanceCount]

@[simp] theorem fastTick_cnt (s : State) : (fastTick s).cnt = nextCount s.cnt := by
  simp only [fastTick, compareChannels, boundaryActions]
  split <;> simp [startCycle, raiseUpd, advanceCount]

@[simp] theorem fastTick_act (s : State) : (fastTick s).act = if nextCount s.cnt = 0#8 then s.pend else s.act := by
  by_cases h : nextCount s.cnt = 0#8 <;>
    simp [fastTick, compareChannels, boundaryActions, startCycle, raiseUpd, advanceCount, atBoundary, h]

@[simp] theorem fastTick_upd (s : State) : (fastTick s).upd = if nextCount s.cnt = 0#8 then true else s.upd := by
  by_cases h : nextCount s.cnt = 0#8 <;>
    simp [fastTick, compareChannels, boundaryActions, startCycle, raiseUpd, advanceCount, atBoundary, h]

/-- The output after a tick: off on a match with the active value of this tick, on at a boundary without one, else as it was
(R122, R123). -/
theorem fastTick_out (s : State) (ch : Channel) :
    (fastTick s).out.get ch =
      if (fastTick s).act.get ch = nextCount s.cnt then .off
      else if nextCount s.cnt = 0#8 then .on else s.out.get ch := by
  by_cases h : nextCount s.cnt = 0#8 <;>
    simp [fastTick, compareChannels, boundaryActions, startCycle, raiseUpd, advanceCount, atBoundary, compareMatch, h]

end Sys2Proof.Machine
end

