-- ==== Sys2Proof/Laws/Guard.lean ====
section
/-! SUPPORT. Everything the Timeout Guard does (R174, R175). -/

namespace Sys2Proof.Machine

open Sys2Proof

/-- What the guard leaves alone: every register of the block, the operations in progress, the inputs (R174). -/
theorem guardStep_frame (s : State) :
    (guardStep s).ti = s.ti ∧ (guardStep s).err = s.err ∧ (guardStep s).pend = s.pend ∧ (guardStep s).act = s.act ∧
    (guardStep s).cnt = s.cnt ∧ (guardStep s).upd = s.upd ∧ (guardStep s).out = s.out ∧ (guardStep s).slow = s.slow ∧
    (guardStep s).bg = s.bg ∧ (guardStep s).cfg = s.cfg ∧ (guardStep s).trace = s.trace ∧ (guardStep s).pos = s.pos ∧
    (guardStep s).gaps = s.gaps := by
  simp only [guardStep]
  split
  · simp [guardIdle]
  · split <;> simp [guardFlush, guardIdle, guardCount, State.flush]

/-- The environment after the guard: Idle, counting, or flushed (R174). -/
theorem guardStep_env (s : State) :
    (s.qlen = 0 ∧ (guardStep s).q = s.q ∧ (guardStep s).idleT = 0 ∧ (guardStep s).lastCnt = 0) ∨
    (s.qlen ≠ 0 ∧ guardTimer s < s.cfg.timeoutTicks ∧
      (guardStep s).q = s.q ∧ (guardStep s).idleT = guardTimer s ∧ (guardStep s).lastCnt = s.qlen) ∨
    (s.qlen ≠ 0 ∧ s.cfg.timeoutTicks ≤ guardTimer s ∧
      (guardStep s).q = [] ∧ (guardStep s).idleT = 0 ∧ (guardStep s).lastCnt = 0) := by
  by_cases hq : s.qlen = 0
  · left; simp [guardStep, guardIdle, hq]
  · right
    by_cases he : s.cfg.timeoutTicks ≤ guardTimer s
    · right
      have hx : guardExpired (guardCount s) = true := decide_eq_true he
      simp [guardStep, hq, hx, guardFlush, guardIdle, State.flush, he]
    · left
      have hx : guardExpired (guardCount s) = false := decide_eq_false he
      simp only [guardStep, hq, hx, if_false, Bool.false_eq_true]
      exact ⟨hq, Nat.lt_of_not_le he, by simp [guardCount]⟩

/-- The guard sees the environment, the threshold and the timer's width only (R174). -/
theorem guardStep_congr {s t : State} (hq : t.q = s.q) (hi : t.idleT = s.idleT) (hl : t.lastCnt = s.lastCnt)
    (hc : t.cfg = s.cfg) :
    (guardStep t).q = (guardStep s).q ∧ (guardStep t).idleT = (guardStep s).idleT ∧
    (guardStep t).lastCnt = (guardStep s).lastCnt := by
  have hn : t.qlen = s.qlen := by simp [State.qlen, hq]
  have ht : guardTimer t = guardTimer s := by simp [guardTimer, hn, hl, hi, hc]
  rcases guardStep_env s with h | h | h <;> rcases guardStep_env t with k | k | k <;>
    simp_all <;> omega

end Sys2Proof.Machine
end

