-- ==== Sys2Proof/Laws/Quantizer.lean ====
section
/-! SUPPORT. Everything one channel of a quantizer run, a run, and a whole slow tick do (R140 to R144, R153). -/

namespace Sys2Proof.Machine

open Sys2Proof

theorem quantizeChannel_pend (ch c : Channel) (s : State) :
    (quantizeChannel ch s).pend.get c =
      if c = ch then pendOf (quantOut (s.err.get ch) (s.ti.get ch)) else s.pend.get c := by
  simp [quantizeChannel, updateErr, writePend, PerCh.get_set]

theorem quantizeChannel_err (ch c : Channel) (s : State) :
    (quantizeChannel ch s).err.get c =
      if c = ch then errOf s.cfg.errW (s.err.get ch) (s.ti.get ch) (quantOut (s.err.get ch) (s.ti.get ch)) else s.err.get c := by
  simp [quantizeChannel, updateErr, writePend, PerCh.get_set]

/-- What one channel's quantization leaves alone (R149, R154). -/
theorem quantizeChannel_frame (ch : Channel) (s : State) :
    (quantizeChannel ch s).ti = s.ti ∧ (quantizeChannel ch s).act = s.act ∧ (quantizeChannel ch s).cnt = s.cnt ∧
    (quantizeChannel ch s).upd = s.upd ∧ (quantizeChannel ch s).out = s.out ∧ (quantizeChannel ch s).q = s.q ∧
    (quantizeChannel ch s).idleT = s.idleT ∧ (quantizeChannel ch s).lastCnt = s.lastCnt ∧
    (quantizeChannel ch s).slow = s.slow ∧ (quantizeChannel ch s).bg = s.bg ∧ (quantizeChannel ch s).cfg = s.cfg ∧
    (quantizeChannel ch s).trace = s.trace ∧ (quantizeChannel ch s).pos = s.pos ∧
    (quantizeChannel ch s).gaps = s.gaps := by
  simp [quantizeChannel, updateErr, writePend]

/-- What a quantizer run writes, per channel: the lanes are independent (R149). -/
theorem quantizerRun_lane (s : State) (ch : Channel) :
    (quantizerRun s).pend.get ch = pendOf (quantOut (s.err.get ch) (s.ti.get ch)) ∧
    (quantizerRun s).err.get ch = errOf s.cfg.errW (s.err.get ch) (s.ti.get ch) (quantOut (s.err.get ch) (s.ti.get ch)) := by
  cases ch <;> simp [quantizerRun, quantizeChannel_pend, quantizeChannel_err, quantizeChannel_frame, clearUpd]

/-- What a quantizer run leaves alone, and the flag it clears (R140, R154). -/
theorem quantizerRun_frame (s : State) :
    (quantizerRun s).upd = false ∧ (quantizerRun s).ti = s.ti ∧ (quantizerRun s).act = s.act ∧
    (quantizerRun s).cnt = s.cnt ∧ (quantizerRun s).out = s.out ∧ (quantizerRun s).q = s.q ∧
    (quantizerRun s).idleT = s.idleT ∧ (quantizerRun s).lastCnt = s.lastCnt ∧ (quantizerRun s).slow = s.slow ∧
    (quantizerRun s).bg = s.bg ∧ (quantizerRun s).cfg = s.cfg ∧ (quantizerRun s).trace = s.trace ∧
    (quantizerRun s).pos = s.pos ∧ (quantizerRun s).gaps = s.gaps := by
  simp [quantizerRun, quantizeChannel_frame, clearUpd]

/-- A slow tick that finds the flag set (R140, R174): the quantizer's writes, then the guard's. -/
theorem slowTick_of_set {s : State} (h : s.upd = true) : slowTick s = guardStep (quantizerRun s) := by
  simp [slowTick, quantizer, h]

/-- A slow tick that finds the flag clear is the guard's step alone (R153). -/
theorem slowTick_of_clear {s : State} (h : s.upd = false) : slowTick s = guardStep s := by
  simp [slowTick, quantizer, h]

/-- What every slow tick leaves alone (R154). -/
theorem slowTick_frame (s : State) :
    (slowTick s).ti = s.ti ∧ (slowTick s).act = s.act ∧ (slowTick s).cnt = s.cnt ∧ (slowTick s).out = s.out ∧
    (slowTick s).slow = s.slow ∧ (slowTick s).bg = s.bg ∧ (slowTick s).cfg = s.cfg ∧ (slowTick s).trace = s.trace ∧
    (slowTick s).pos = s.pos ∧ (slowTick s).gaps = s.gaps := by
  cases h : s.upd
  · rw [slowTick_of_clear h]; simp [guardStep_frame]
  · rw [slowTick_of_set h]; simp [guardStep_frame, quantizerRun_frame]

/-- The environment sees the guard's half of a slow tick only (R185). -/
theorem slowTick_env (s : State) :
    (slowTick s).q = (guardStep s).q ∧ (slowTick s).idleT = (guardStep s).idleT ∧
    (slowTick s).lastCnt = (guardStep s).lastCnt := by
  cases h : s.upd
  · rw [slowTick_of_clear h]; simp
  · rw [slowTick_of_set h]
    have f := quantizerRun_frame s
    exact guardStep_congr f.2.2.2.2.2.1 f.2.2.2.2.2.2.1 f.2.2.2.2.2.2.2.1 f.2.2.2.2.2.2.2.2.2.2.1

end Sys2Proof.Machine
end

