-- ==== Sys2Proof/Laws/Micro.lean ====
section
/-! SUPPORT. Everything a micro-step can do (R63, R194, R196). -/

namespace Sys2Proof.Machine

open Sys2Proof

/-- No micro-step touches the generator's registers, the configuration or the inputs. -/
theorem slowMicro_frame (p : SlowPos) (s : State) :
    (slowMicro p s).ti = s.ti ∧ (slowMicro p s).act = s.act ∧ (slowMicro p s).cnt = s.cnt ∧
    (slowMicro p s).out = s.out ∧ (slowMicro p s).bg = s.bg ∧ (slowMicro p s).cfg = s.cfg ∧
    (slowMicro p s).trace = s.trace ∧ (slowMicro p s).pos = s.pos ∧ (slowMicro p s).gaps = s.gaps := by
  cases p with
  | clear u => cases u <;> simp [slowMicro, clearUpd]
  | guard => simp [slowMicro, guardStep_frame]
  | _ => simp [slowMicro, writePend, updateErr]

theorem bgMicro_frame (p : BgPos) (s : State) :
    (bgMicro p s).err = s.err ∧ (bgMicro p s).pend = s.pend ∧ (bgMicro p s).act = s.act ∧ (bgMicro p s).cnt = s.cnt ∧
    (bgMicro p s).upd = s.upd ∧ (bgMicro p s).out = s.out ∧ (bgMicro p s).lastCnt = s.lastCnt ∧
    (bgMicro p s).slow = s.slow ∧ (bgMicro p s).cfg = s.cfg ∧ (bgMicro p s).trace = s.trace ∧
    (bgMicro p s).pos = s.pos ∧ (bgMicro p s).gaps = s.gaps := by
  cases p with
  | poll => simp only [bgMicro]; split <;> simp [takeMessage]
  | lookup r g b => simp [bgMicro]
  | store ch v => simp [bgMicro]

/-- One micro-step is one of the slow task when a `STICK` is in progress, else one of the background loop, else nothing
(R194). -/
theorem microStep_cases (s : State) :
    (∃ p, s.slow = some p ∧ microStep s = slowMicro p s) ∨
    (∃ p, s.slow = none ∧ s.bg = some p ∧ microStep s = bgMicro p s) ∨
    (s.slow = none ∧ s.bg = none ∧ microStep s = s) := by
  cases hs : s.slow <;> cases hb : s.bg <;> simp [microStep, hs, hb]

theorem microStep_frame (s : State) :
    (microStep s).act = s.act ∧ (microStep s).cnt = s.cnt ∧ (microStep s).out = s.out ∧ (microStep s).cfg = s.cfg ∧
    (microStep s).trace = s.trace ∧ (microStep s).pos = s.pos ∧ (microStep s).gaps = s.gaps := by
  rcases microStep_cases s with ⟨p, _, h⟩ | ⟨p, _, _, h⟩ | ⟨_, _, h⟩ <;>
    simp [h, slowMicro_frame, bgMicro_frame]

/-- Micro-steps in a row. -/
theorem microRun_add (m n : Nat) (s : State) : microRun (m + n) s = microRun n (microRun m s) := by
  induction m generalizing s with
  | zero => simp [microRun]
  | succ m ih => rw [Nat.succ_add]; exact ih _

/-- The three micro-steps `s1`, `s2`, `s3` of a channel, with no event between them, are that channel's quantization (R63,
R140). -/
theorem microRun_channel (ch : Channel) (s : State) :
    microRun 3 (s.setSlow (some (.read ch))) = (quantizeChannel ch s).setSlow (some (slowAfter ch)) := rfl

end Sys2Proof.Machine
end

