-- ==== Sys2Proof/Laws/PerInstr.lean ====
section
/-! SUPPORT. The family RowMatch: the word of every operation is spelled by its own row of R83 and by no other row. -/

namespace Sys2Proof.Laws

open Sys2Proof

/-- The rows of R83 that spell the word of an operation are exactly its own. -/
def RowMatch.Statement (i : Instr) : Prop :=
  ∀ row ∈ opTable, row.spells (encodeWord i) = true ↔ row.mnemonic = i.mnemonic

theorem RowMatch.ftick : RowMatch.Statement .ftick := by simp only [RowMatch.Statement]; decide

theorem RowMatch.stick : RowMatch.Statement .stick := by simp only [RowMatch.Statement]; decide

theorem RowMatch.cmd (r g b : Byte) : RowMatch.Statement (.cmd r g b) := by
  have h : ∀ row ∈ opTable, (0x03#8 &&& wordOp row.maskBits = wordOp row.matchBits ↔ row.mnemonic = "CMD") ∧
      (row.mnemonic = "CMD" → wordArgHi row.maskBits = 0 ∧ wordArgHi row.matchBits = 0 ∧
        wordArgMid row.maskBits = 0 ∧ wordArgMid row.matchBits = 0 ∧
        wordArgLo row.maskBits = 0 ∧ wordArgLo row.matchBits = 0) := by decide
  intro row hr
  obtain ⟨hop, harg⟩ := h row hr
  rw [OpRow.spells_iff]
  simp only [encodeWord, wordOp_wordOfBytes, wordArgHi_wordOfBytes, wordArgMid_wordOfBytes, wordArgLo_wordOfBytes]
  constructor
  · rintro ⟨h1, -⟩
    exact hop.1 h1
  · intro hm
    obtain ⟨a, a', b, b', c, c'⟩ := harg hm
    exact ⟨hop.2 hm, by simp [a, a'], by simp [b, b'], by simp [c, c']⟩

theorem RowMatch.enq (x : Byte) : RowMatch.Statement (.enq x) := by
  have h : ∀ row ∈ opTable, (0x04#8 &&& wordOp row.maskBits = wordOp row.matchBits ↔ row.mnemonic = "ENQ") ∧
      (row.mnemonic = "ENQ" → wordArgHi row.matchBits = 0 ∧ wordArgMid row.matchBits = 0 ∧
        wordArgLo row.maskBits = 0 ∧ wordArgLo row.matchBits = 0) := by decide
  intro row hr
  obtain ⟨hop, harg⟩ := h row hr
  rw [OpRow.spells_iff]
  simp only [encodeWord, wordOp_wordOfBytes, wordArgHi_wordOfBytes, wordArgMid_wordOfBytes, wordArgLo_wordOfBytes]
  constructor
  · rintro ⟨h1, -⟩
    exact hop.1 h1
  · intro hm
    obtain ⟨a, b, c, c'⟩ := harg hm
    exact ⟨hop.2 hm, by simp [a], by simp [b], by simp [c, c']⟩

theorem RowMatch.bgpoll : RowMatch.Statement .bgpoll := by simp only [RowMatch.Statement]; decide

theorem RowMatch.reset : RowMatch.Statement .reset := by simp only [RowMatch.Statement]; decide

end Sys2Proof.Laws
end

