-- ==== Sys2Proof/Laws/Step.lean ====
section
/-! SUPPORT. What an operation and a step can do: one inversion lemma each. -/

namespace Sys2Proof.Machine

open Sys2Proof

/-- Every next state an operation can answer (R120, R140, R160, R171, R172, R220). -/
theorem exec_next_cases {i : Instr} {s t : State} (h : exec i s = .next t) :
    (i = .ftick ∧ t = fastTick s) ∨
    (i = .stick ∧ s.slow = none ∧ s.cfg.sched = .atomic ∧ t = slowTick s) ∨
    (i = .stick ∧ s.slow = none ∧ s.cfg.sched = .preemptive ∧ t = s.setSlow (some .test)) ∨
    (∃ r g b, i = .cmd r g b ∧ s.bg = none ∧ s.cfg.sched = .atomic ∧ t = applyMessage r g b s) ∨
    (∃ r g b, i = .cmd r g b ∧ s.bg = none ∧ s.cfg.sched = .preemptive ∧ t = s.setBg (some (.lookup r g b))) ∨
    (∃ x, i = .enq x ∧ s.queueFull = false ∧ t = s.appendByte x) ∨
    (i = .bgpoll ∧ s.bg = none ∧ s.cfg.sched = .atomic ∧ t = pollOnce s) ∨
    (i = .bgpoll ∧ s.bg = none ∧ s.cfg.sched = .preemptive ∧ t = s.setBg (some .poll)) ∨
    (i = .reset ∧ t = s.applyReset) := by
  cases i with
  | ftick =>
    left
    simp only [exec, execFtick, Host.Outcome.next.injEq] at h
    exact ⟨rfl, h.symm⟩
  | stick =>
    cases hs : s.slow <;> cases hc : s.cfg.sched <;> simp_all [exec, execStick]
  | cmd r g b =>
    cases hs : s.bg <;> cases hc : s.cfg.sched <;> simp_all [exec, execCmd]
  | enq x =>
    cases hq : s.queueFull <;> simp_all [exec, execEnq]
  | bgpoll =>
    cases hs : s.bg <;> cases hc : s.cfg.sched <;> simp_all [exec, execBgpoll]
  | reset =>
    simp only [exec, execReset, Host.Outcome.next.injEq] at h
    simp [h]

/-- Every refusal an operation can answer, with its reason (R203). -/
theorem exec_refused_cases {i : Instr} {s : State} {r : Refusal} (h : exec i s = .refused r) :
    (i = .stick ∧ s.slow.isSome ∧ r = .slowOverrun) ∨
    ((∃ a b c, i = .cmd a b c) ∧ s.bg.isSome ∧ r = .backgroundOverrun) ∨
    (i = .bgpoll ∧ s.bg.isSome ∧ r = .backgroundOverrun) ∨
    ((∃ x, i = .enq x) ∧ s.queueFull = true ∧ r = .queueFull) := by
  cases i with
  | ftick => simp [exec, execFtick] at h
  | stick => cases hs : s.slow <;> cases hc : s.cfg.sched <;> simp_all [exec, execStick]
  | cmd a b c => cases hs : s.bg <;> cases hc : s.cfg.sched <;> simp_all [exec, execCmd]
  | enq x => cases hq : s.queueFull <;> simp_all [exec, execEnq]
  | bgpoll => cases hs : s.bg <;> cases hc : s.cfg.sched <;> simp_all [exec, execBgpoll]
  | reset => simp [exec, execReset] at h

/-- What taking an event changes before its operation runs: the trace, its position and its arrival. -/
theorem State.consume_eq (s : State) (rest : List Byte) :
    s.consume rest = { s with trace := rest, pos := s.pos + 1, gaps := s.gaps.tail } := rfl

/-- The state without an event: one micro-step of the work in progress, or nothing. -/
theorem State.proceed_cases (s : State) :
    (s.busy = true ∧ s.proceed = microStep (s.setGaps (countGap s.gaps))) ∨ (s.busy = false ∧ s.proceed = s) := by
  cases h : s.busy <;> simp [State.proceed, h]

/-- Every refusal a step can answer: of an event's word, or of its operation (R85, R203). -/
theorem step_refused_cases {s : State} {r : Refusal} (h : step s = .refused r) :
    s.takesEvent = true ∧
      ((∃ e, decode s.trace = .error e ∧ r = .invalidWord s.pos e) ∨
        (∃ i rest, decode s.trace = .ok (i, rest) ∧ exec i (s.consume rest) = .refused r)) := by
  cases he : s.takesEvent with
  | false => simp [step, he] at h
  | true =>
    refine ⟨rfl, ?_⟩
    simp only [step, he, if_true] at h
    cases hd : decode s.trace with
    | error e => left; exact ⟨e, rfl, by simpa [hd] using h.symm⟩
    | ok p => right; exact ⟨p.1, p.2, rfl, by simpa [hd] using h⟩

/-- Every next state a step can answer (R90). -/
theorem step_next_cases {s t : State} (h : step s = .next t) :
    (∃ i rest, s.takesEvent = true ∧ decode s.trace = .ok (i, rest) ∧ exec i (s.consume rest) = .next t) ∨
    (s.takesEvent = false ∧ t = s.proceed) := by
  cases he : s.takesEvent with
  | false =>
    right
    simp only [step, he, Bool.false_eq_true, if_false, Host.Outcome.next.injEq] at h
    exact ⟨rfl, h.symm⟩
  | true =>
    left
    simp only [step, he, if_true] at h
    cases hd : decode s.trace with
    | error e => simp [hd] at h
    | ok p =>
      obtain ⟨i, rest⟩ := p
      exact ⟨i, rest, rfl, rfl, by simpa [hd] using h⟩

end Sys2Proof.Machine
end

