-- ==== Sys2Proof/Tests/Slice0.lean ====
section
/-! SUPPORT. Tests. Every expected value is from spec/95_test_vectors.md (the vector's name stands in the comment) or from the
rule named; the gamma tables are the spec's own fixtures of R114 (Machine/Fixtures.lean), not the hardware's table. -/

namespace Sys2Proof.Tests

open Sys2Proof Sys2Proof.Machine Sys2Proof.Safety

/-! ## Helpers -/

/-- The reset state with the fixtures of 95: `GAMMA_LIN16`, `TIMEOUT_TICKS` = 4 (D20). -/
def base : State := { State.reset with cfg := { Config.build with gamma := gammaLin16, timeoutTicks := 4 } }

/-- The same in the preemptive granularity. -/
def pre : State := withSched .preemptive base

/-- The next state, if there is one. -/
def next? : Host.Outcome State Fault Refusal → Option State
  | .next s => some s
  | .fault _ => none
  | .refused _ => none

/-- The refusal, if there is one. -/
def refusal? : Host.Outcome State Fault Refusal → Option Refusal
  | .refused r => some r
  | .next _ => none
  | .fault _ => none

/-! ## Decoding (95 section 2): words written out byte by byte -/

theorem test_decode_ftick : decode [0x01, 0x00, 0x00, 0x00] = .ok (.ftick, []) := by decide

theorem test_decode_stick : decode [0x02, 0x00, 0x00, 0x00, 0x01] = .ok (.stick, [0x01]) := by decide

theorem test_decode_cmd : decode [0x03, 0x01, 0x80, 0xFF] = .ok (.cmd 1 128 255, []) := by decide

theorem test_decode_cmd_first_byte_is_r : decode [0x03, 0x64, 0x00, 0x00] = .ok (.cmd 100 0 0, []) := by decide

theorem test_decode_enq : decode [0x04, 0x00, 0x00, 0xFF] = .ok (.enq 255, []) := by decide

theorem test_decode_bgpoll : decode [0x05, 0x00, 0x00, 0x00] = .ok (.bgpoll, []) := by decide

theorem test_decode_reset : decode [0x06, 0x00, 0x00, 0x00] = .ok (.reset, []) := by decide

theorem test_decode_zero_word : decode [0, 0, 0, 0] = .error (.reservedOp 0) := by decide

theorem test_decode_mbz : decode [0x02, 0x80, 0x00, 0x00] = .error (.nonZeroArg 0x02800000) ∧
    decode [0x04, 0x00, 0x01, 0x00] = .error (.nonZeroArg 0x04000100) ∧
    decode [0x06, 0xFF, 0xFF, 0xFF] = .error (.nonZeroArg 0x06FFFFFF) := by decide

theorem test_decode_truncated : decode [0x01, 0x00, 0x00] = .error .truncated := by decide

theorem test_table_words : decodeTableWord 32 0x030180FF = some (.cmd 1 128 255) ∧
    decodeTableWord 32 0x0400000A = some (.enq 10) ∧ decodeTableWord 32 0xFFFFFFFF = none := by decide

/-! ## WellFormed: an ill-formed term for each check -/

theorem test_instr_wf : (Instr.cmd 0 255 0).wf = true := by decide

theorem test_timeout_zero_refused : ({ base.cfg with timeoutTicks := 0 } : Config).wf = false := by decide

theorem test_timeout_256_refused : ({ base.cfg with timeoutTicks := 256 } : Config).wf = false := by decide

theorem test_qcap_2_refused : ({ base.cfg with qcap := some 2 } : Config).wf = false := by decide

theorem test_timeout_above_width_refused : ({ base.cfg with idleW := 9, timeoutTicks := 512 } : Config).wf = false ∧
    ({ base.cfg with idleW := 9, timeoutTicks := 511 } : Config).wf = true := by decide

theorem test_err_width_5_refused : ({ base.cfg with errW := 5 } : Config).wf = false ∧
    ({ base.cfg with errW := 6 } : Config).wf = true := by decide

theorem test_config_wf : base.cfg.wf = true ∧ ({ base.cfg with timeoutTicks := 255, qcap := some 3 } : Config).wf = true := by
  decide

theorem test_operand_256_refused : (Stmt.cmd 256 0 0).wf = false ∧ (Stmt.enq 256).expand = none ∧
    (Stmt.msg 0 0 256).wf = false := by decide

theorem test_count_zero_refused : (Stmt.ftick 0).wf = false ∧ (Stmt.stick 0).wf = false ∧ (Stmt.frame 0).wf = false := by
  decide

/-! ## FTICK -/

/-- Vector G2: the boundary; channel 2 with 0 goes off in the same tick. -/
theorem test_ftick_boundary :
    (next? (exec .ftick { base with cnt := 255, pend := ⟨2, 129, 0⟩, act := ⟨9, 9, 9⟩ })).map
      (fun t => (t.cnt, t.pend, t.act, t.out, t.upd)) =
    some (0, ⟨2, 129, 0⟩, ⟨2, 129, 0⟩, ⟨.on, .on, .off⟩, true) := by decide

/-- Vector G1: a match turns channel 0 off; Pending is not looked at in mid-cycle. -/
theorem test_ftick_match :
    (next? (exec .ftick { base with cnt := 5, pend := ⟨9, 9, 9⟩, act := ⟨6, 5, 200⟩, out := ⟨.on, .off, .on⟩ })).map
      (fun t => (t.cnt, t.act, t.out, t.upd)) = some (6, ⟨6, 5, 200⟩, ⟨.off, .off, .on⟩, false) := by decide

/-! ## STICK -/

/-- Vector Q1: the example of R140. -/
theorem test_stick_run :
    (next? (exec .stick
      { base with upd := true, ti := ⟨100, 2048, 4079⟩, err := ⟨0, -16, -1⟩, pend := ⟨9, 9, 9⟩ })).map
      (fun t => (t.upd, t.pend, t.err)) =
    some (false, ⟨7, 128, 254⟩, ⟨-12, -16, 14⟩) := by decide

/-- Vector Q3: outputs 256, 1, 256; 256 is stored as 0 and the error update uses 256. -/
theorem test_stick_full_scale :
    (next? (exec .stick { base with upd := true, ti := ⟨4080, 0, 4095⟩, err := ⟨14, 0, 14⟩, pend := ⟨9, 9, 9⟩ })).map
      (fun t => (t.upd, t.pend, t.err)) =
    some (false, ⟨0, 1, 0⟩, ⟨-2, -16, 13⟩) := by decide

/-- Vector Q2: the flag clear, nothing happens to the block. -/
theorem test_stick_flag_clear :
    (next? (exec .stick { base with ti := ⟨100, 2048, 4079⟩, pend := ⟨9, 9, 9⟩ })).map
      (fun t => (t.upd, t.pend, t.err)) = some (false, ⟨9, 9, 9⟩, ⟨0, 0, 0⟩) := by decide

/-- Vectors E6 to E12: Idle, growth, one tick without growth, growth again, Flush, a whole message flushed, a byte left by a
dequeue. -/
theorem test_guard_rows :
    [([], 3, 2), ([7], 0, 0), ([7], 0, 1), ([7, 8], 2, 1), ([7, 8], 3, 2), ([1, 2, 3], 3, 3), ([40], 0, 4)].map
      (fun (r : List Byte × Nat × Nat) => (next? (exec .stick { base with q := r.1, idleT := r.2.1, lastCnt := r.2.2 })).map
        (fun t => (t.q, t.idleT, t.lastCnt))) =
    [some ([], 0, 0), some ([7], 0, 1), some ([7], 1, 1), some ([7, 8], 0, 2), some ([], 0, 0), some ([], 0, 0),
      some ([40], 1, 1)] := by decide

/-- Vectors E13, E14: `TIMEOUT_TICKS` = 1. -/
theorem test_guard_threshold_one :
    [0, 1].map (fun l => (next? (exec .stick { base with cfg := { base.cfg with timeoutTicks := 1 }, q := [5], lastCnt := l })).map
      (fun t => (t.q, t.idleT, t.lastCnt))) = [some ([5], 0, 1), some ([], 0, 0)] := by decide

/-- A threshold above 255 needs `IDLE_W` above 8 (R174): with 9 bits and `TIMEOUT_TICKS` = 300 the timer passes 255 without a
wrap, and the 300th tick without growth flushes. -/
theorem test_guard_wide_timer :
    [255, 299].map (fun n => (next? (exec .stick
      { base with cfg := { base.cfg with idleW := 9, timeoutTicks := 300 }, q := [7], idleT := n, lastCnt := 1 })).map
      (fun t => (t.q, t.idleT, t.lastCnt))) = [some ([7], 256, 1), some ([], 0, 0)] := by decide

/-- R12, R22: what a store in `ERR_W` bits keeps: the ends of 6 and of 8 bits, and the first values beyond them. -/
theorem test_narrow_widths : [31, 32, -32, -33].map (narrowErr 6) = [31, -32, -32, 31] ∧
    [127, 128, -128, -129].map (narrowErr 8) = [127, -128, -128, 127] := by decide

/-! ## The gamma fixtures (95 section 3.1) -/

/-- The listed entries of both tables. -/
theorem test_gamma_fixtures :
    [gammaLin16[0], gammaLin16[1], gammaLin16[128], gammaLin16[255]] = [0, 16, 2048, 4080] ∧
    [gammaHi15[0], gammaHi15[254], gammaHi15[255]] = [15, 4079, 4095] := by
  simp [gammaLin16, gammaHi15]

/-! ## CMD -/

/-- Vector K1. -/
theorem test_cmd_lin16 : exec (.cmd 1 128 255) base = .next { base with ti := ⟨16, 2048, 4080⟩ } := by
  have h := State.memReadGamma_lin16 (s := base) rfl
  show Host.Outcome.next (base.setTi ⟨base.memReadGamma 1, base.memReadGamma 128, base.memReadGamma 255⟩) = _
  rw [h, h, h]
  rfl

/-- Vector K3: out-of-contract words are written as they are. -/
theorem test_cmd_hi15 : ∀ s : State, s.cfg.gamma = gammaHi15 →
    applyMessage 255 254 0 s = { s with ti := ⟨4095, 4079, 15⟩ } := by
  intro s hs
  have h := State.memReadGamma_hi15 hs
  show s.setTi ⟨s.memReadGamma 255, s.memReadGamma 254, s.memReadGamma 0⟩ = _
  rw [h, h, h]
  rfl

/-! ## ENQ, BGPOLL -/

/-- Vector E1. -/
theorem test_enq : (next? (exec (.enq 20) { base with q := [10], lastCnt := 1 })).map (fun t => (t.q, t.idleT, t.lastCnt)) =
    some ([10, 20], 0, 1) := by decide

/-- U7: a full bounded queue. -/
theorem test_enq_full : refusal? (exec (.enq 9) { base with q := [1, 2, 3], cfg := { base.cfg with qcap := some 3 } }) =
    some .queueFull := by decide

/-- Vector E2, the environment's part. -/
theorem test_bgpoll : (next? (exec .bgpoll { base with q := [10, 20, 30, 40], idleT := 2, lastCnt := 4 })).map
    (fun t => (t.q, t.idleT, t.lastCnt)) = some ([40], 0, 4) := by decide

/-- Vector E2, the targets. -/
theorem test_bgpoll_targets : (pollOnce { base with q := [10, 20, 30, 40] }).ti = ⟨160, 320, 480⟩ := by
  have h := State.memReadGamma_lin16 (s := base) rfl
  show (⟨base.memReadGamma 10, base.memReadGamma 20, base.memReadGamma 30⟩ : PerCh Intensity) = _
  rw [h, h, h]
  rfl

/-- Vector E3: fewer than 3 bytes. -/
theorem test_bgpoll_partial : (next? (exec .bgpoll { base with q := [1, 2], idleT := 1, lastCnt := 2 })).map
    (fun t => (t.q, t.idleT, t.lastCnt, t.ti)) = some ([1, 2], 1, 2, ⟨0, 0, 0⟩) := by decide

/-! ## RESET -/

/-- A state in the middle of everything. -/
def busyState : State :=
  { pre with
    ti := ⟨1, 2, 3⟩, err := ⟨1, 1, 1⟩, cnt := 77, upd := true, out := ⟨.on, .on, .on⟩
    q := [1], idleT := 3, lastCnt := 1, slow := some .guard, bg := some .poll }

/-- Vector Z1. -/
theorem test_reset :
    (next? (exec .reset busyState)).map (fun t => (t.ti, t.err, t.cnt)) = some (⟨0, 0, 0⟩, ⟨0, 0, 0⟩, 0) ∧
    (next? (exec .reset busyState)).map (fun t => (t.upd, t.out)) = some (false, ⟨.off, .off, .off⟩) ∧
    (next? (exec .reset busyState)).map (fun t => (t.q, t.idleT, t.lastCnt)) = some ([], 0, 0) ∧
    (next? (exec .reset busyState)).map (fun t => (t.slow, t.bg)) = some (none, none) := by decide

/-- Vector Z7, its first event: with `CNT_RESET` = 255 the first tick after a `RESET` is already a boundary. -/
theorem test_reset_cnt255 :
    (next? (execAll [.reset, .ftick] { base with cfg := { base.cfg with cntReset := 255 } })).map
      (fun t => (t.cnt, t.upd, t.act, t.out)) = some (0, true, ⟨0, 0, 0⟩, ⟨.off, .off, .off⟩) := by decide

/-! ## Micro-steps (R63; interleaving X3) -/

/-- `s0b` after a boundary that fell between test and clear: the flag is erased. -/
theorem test_micro_absorbed : (fun t : State => (t.upd, t.slow))
    (microStep { pre with slow := some (.clear true), upd := true }) = (false, some (.read .r)) := by decide

/-- `s2` of channel 1 of X1: the other channels keep the previous run's values. -/
theorem test_micro_write : (fun t : State => (t.pend, t.slow))
    (microStep { pre with slow := some (.write .g 1600), pend := ⟨101, 0, 0⟩ }) =
    (⟨101, 101, 0⟩, some (.update .g 1600 101)) := by decide

/-- `c2` of X2. -/
theorem test_micro_store : (fun t : State => (t.ti, t.bg))
    (microStep { pre with bg := some (.store .g ⟨320, 320, 320⟩), ti := ⟨320, 160, 160⟩ }) =
    (⟨320, 320, 160⟩, some (.store .b ⟨320, 320, 320⟩)) := by decide

/-! ## The step, the trace, the ports, the assembly -/

/-- W11: the trace of the zero word is refused at word 0. -/
theorem test_step_zero_word : refusal? (step (base.withFetchWord 32 0)) = some (.invalidWord 0 (.reservedOp 0)) := by decide

/-- A slow tick that arrives while a command is in progress starts over it, and its micro-step runs first. -/
theorem test_step_preempts :
    ((next? (step { pre with bg := some (.lookup 1 2 3), trace := [2, 0, 0, 0], gaps := [0] })).map
      (fun t => (t.slow, t.bg, (microStep t).slow, (microStep t).bg))) =
    some (some .test, some (.lookup 1 2 3), some (.clear false), some (.lookup 1 2 3)) := by decide

/-- R197: a `CMD` on the same edge as a `STICK` is not seen by that quantizer run. -/
theorem test_edge_command_after_stick :
    (next? (clockEdge ⟨false, false, true, true, 7, 7, 7⟩ { base with upd := true, ti := ⟨100, 100, 100⟩ })).map
      (fun t => t.pend) = some ⟨7, 7, 7⟩ := by decide

/-- R197: a reset discards the other events of its edge. -/
theorem test_edge_reset : edgeEvents ⟨true, true, true, true, 1, 2, 3⟩ = [.reset] ∧
    edgeEvents ⟨false, true, true, true, 1, 2, 3⟩ = [.ftick, .stick, .cmd 1 2 3] := by decide

/-- R88, R89: the lines of P1 and P4, comments and hexadecimal. -/
theorem test_assembly : assembleLine "CMD 1, 128, 0xFF ; full".toList = some [.cmd 1 128 255] ∧
    assembleLine "MSG 1, 2, 3".toList = some [.enq 1, .enq 2, .enq 3] ∧
    assembleLine "  ; nothing".toList = some [] ∧ assembleLine "STICK 2".toList = some [.stick, .stick] ∧
    assembleLine "ENQ 256".toList = none ∧ assembleLine "enq 1".toList = none := by decide

/-! ## Witnesses: concrete states and operands that meet the hypotheses of each statement together -/

/-- `StepRunsTheDecodedOperation`. -/
theorem witness_step_runs : (base.withFetchWord 32 0x01000000).takesEvent = true ∧
    decode (base.withFetchWord 32 0x01000000).trace = .ok (.ftick, []) := by decide

/-- `PlacedWordRunsNext`. -/
theorem witness_placed_word : decodeTableWord 32 0x06000000 = some .reset := by decide

/-- `StepWithoutAnEvent`, both clauses. -/
theorem witness_no_event : ({ pre with slow := some .test, trace := [1, 0, 0, 0], gaps := [1] } : State).takesEvent = false ∧
    ({ pre with slow := some .test } : State).busy = true ∧ base.takesEvent = false ∧ base.busy = false := by decide

/-- `ReservedWordRefusedAtItsPosition`. -/
theorem witness_reserved : ({ base with trace := [7, 0, 0, 0] } : State).eventDue = true ∧
    ∀ row ∈ opTable, row.spells (wordOfBytes 7 0 0 0) = false := by decide

/-- `DecodedBytesAreTheEncoding`, `WordDecodesByItsRow` and `RowsAreDisjoint`. -/
theorem witness_decode : decode [4, 0, 0, 9, 1] = .ok (.enq 9, [1]) ∧ decodeWord 0x04000009 = .ok (.enq 9) ∧
    (opTable.map fun row => row.spells 0x04000009) = [false, false, false, true, false, false] := by decide

/-- `AssemblyGivesTheListedWords`: the ends of the operand range. -/
theorem witness_assembly : (0 : Nat) ≤ 255 ∧ (255 : Nat) ≤ 255 ∧ 255 < (256 : Nat) ∧ (1 : Nat) ≤ 1 := by decide

/-- A preemptive state whose bounded queue is full. -/
def preFull : State := { pre with q := [1, 2, 3], upd := true, cfg := { pre.cfg with qcap := some 3 } }

/-- `OperationsCompleteWhenNothingIsInProgress` and `UninterruptedRunsReachTheAtomicResult`: a queue with room, and a full one. -/
theorem witness_quiet : base.quiet = true ∧ base.queueFull = false ∧ pre.quiet = true ∧ pre.cfg.sched = .preemptive ∧
    pre.queueFull = false ∧ preFull.quiet = true ∧ preFull.cfg.sched = .preemptive ∧ preFull.queueFull = true := by decide

/-- `RefusalsAreTheNamedOnes`: a refused step of each kind, a word that does not decode, and cut words of one byte and of
three. -/
theorem witness_step_refusals :
    refusal? (step { base with trace := [9, 0, 0, 0], pos := 5 }) = some (.invalidWord 5 (.reservedOp 0x09000000)) ∧
    refusal? (step { pre with slow := some .test, trace := [2, 0, 0, 0], gaps := [0] }) = some .slowOverrun ∧
    ({ base with trace := [9, 0, 0, 0] } : State).takesEvent = true ∧ decode [9, 0, 0, 0] = .error (.reservedOp 0x09000000) ∧
    ({ base with trace := [1] } : State).eventDue = true ∧ ({ base with trace := [1, 0, 0] } : State).eventDue = true ∧
    1 ≤ [(1 : Byte)].length ∧ [(1 : Byte), 0, 0].length ≤ 3 := by decide

/-- `RefusalsAreTheNamedOnes` and `OverrunsAndFullQueuesAreRefused`: each reason. -/
theorem witness_refusals :
    refusal? (exec .stick { pre with slow := some .test }) = some .slowOverrun ∧
    refusal? (exec (.cmd 1 2 3) { pre with bg := some .poll }) = some .backgroundOverrun ∧
    refusal? (exec .bgpoll { pre with bg := some .poll }) = some .backgroundOverrun ∧
    refusal? (exec (.enq 9) { base with q := [1, 2, 3], cfg := { base.cfg with qcap := some 3 } }) = some .queueFull := by
  decide

/-- `FastTickFrame`, `SlowTickFrame`, `CommandFrame`, `OperationsWriteOnlyWhatTheyOwn`: the operations complete on these. -/
theorem witness_frames : (next? (exec .ftick base)).isSome ∧ (next? (exec .stick base)).isSome ∧
    (next? (exec .stick pre)).isSome ∧ (next? (exec (.cmd 1 2 3) base)).isSome ∧ (next? (exec (.cmd 1 2 3) pre)).isSome := by
  decide

/-- `BoundaryTransfersPendingAndRaisesTheFlag`, `FastTickComparesEveryChannel`: each clause at a boundary value of its range. -/
theorem witness_fast_tick_clauses :
    (next? (exec .ftick { base with cnt := 255 })).map (fun t => t.cnt) = some 0 ∧
    (next? (exec .ftick { base with cnt := 0, act := ⟨1, 0, 2⟩ })).map
      (fun t => (t.cnt, decide (t.act.get .r = t.cnt), decide (t.act.get .g = t.cnt))) = some (1, true, false) := by decide

/-- `GeneratorIgnoresTargetsAndErrors`. -/
theorem witness_generator : SameGenerator base { base with ti := ⟨1, 2, 3⟩, err := ⟨4, 5, 6⟩, upd := true } :=
  ⟨rfl, rfl, rfl, rfl⟩

/-- `OneCycleIsOnBelowTheDutyValue`, `BoundaryEstablishesTheOutputLaw`, `MissedUpdateRepeatsTheDutyValues`: the state, with
Pending and Active apart, and the ends of the range of `k`. -/
theorem witness_boundary : ({ base with cnt := 255, pend := ⟨1, 2, 3⟩ } : State).cnt = 255 ∧
    (⟨1, 2, 3⟩ : PerCh Byte) ≠ base.act ∧ (0 : Nat) ≤ 255 ∧ (255 : Nat) ≤ 255 := by decide

/-- `SlowTickInEveryCycleKeepsOnePending`: the first and the last tick of a cycle. -/
theorem witness_one_pending : base.slow = none ∧ base.cfg.sched = .atomic ∧ base.cnt.toNat + 255 ≤ 255 ∧
    ({ base with cnt := 255 } : State).cnt.toNat + 0 ≤ 255 := by decide

/-- `StepsKeepTheOutputLaw`: a running state with its step. -/
theorem witness_output_law : (OutputResetOk base.cfg ∧ OutputLaw base) ∧ (next? (step (base.withFetchWord 32 0x01000000))).isSome :=
  ⟨⟨fun ch => by cases ch <;> decide, fun ch => by cases ch <;> decide⟩, by decide⟩

/-- `StepsKeepTheErrorBound`: a `STICK` suspended before `s3`. -/
theorem witness_error_bound : pre.cfg.errWOk = true ∧
    ErrBounded { pre with slow := some (.update .r 100 7) } ∧ (next? (step { pre with slow := some (.update .r 100 7) })).isSome := by
  refine ⟨by decide, ⟨fun ch => by cases ch <;> decide, ?_⟩, by decide⟩
  rintro ch t out ⟨⟩
  decide

/-- `SlowTickQuantizesEveryChannel`, `StepsKeepTheRegistersInTheirWidths`: the ends of 8 bits, and of the least width 6, beside
the ends of a 9-bit timer. -/
theorem witness_registers_fit :
    RegistersFit { base with err := ⟨-128, 127, 0⟩, idleT := 255 } ∧
    RegistersFit { base with cfg := { base.cfg with errW := 6, idleW := 9 }, err := ⟨-32, 31, 0⟩, idleT := 511 } ∧
    ({ base.cfg with errW := 6 } : Config).errWOk = true ∧ (next? (step (base.withFetchWord 32 0x02000000))).isSome := by
  refine ⟨⟨fun ch => ?_, by decide⟩, ⟨fun ch => ?_, by decide⟩, by decide, by decide⟩ <;>
    cases ch <;> exact ⟨by decide, by decide⟩

/-- `StepsKeepTargetsInContract`: a command suspended before `c1`, full scale on its way. -/
theorem witness_contract :
    (ContractConfig pre.cfg ∧ TargetsInContract { pre with bg := some (.store .r ⟨4080, 0, 0⟩) }) ∧
    (next? (step { pre with bg := some (.store .r ⟨4080, 0, 0⟩) })).isSome := by
  refine ⟨⟨⟨gammaLin16_inContract rfl, fun ch => by cases ch <;> decide⟩, fun ch => by cases ch <;> decide, ?_⟩, by decide⟩
  rintro c v ⟨⟩ ch
  cases ch <;> decide

/-- `SlowTickQuantizesEveryChannel`: both signs, at 0 and at −1; `SlowTickWithTheFlagClearLeavesTheBlock`: both granularities. -/
theorem witness_slow_tick : base.slow = none ∧ base.cfg.sched = .atomic ∧ ({ base with upd := true } : State).upd = true ∧
    base.cfg.errWOk = true ∧ 0 ≤ (0 : Int) ∧ (-1 : Int) < 0 ∧ base.upd = false ∧ pre.upd = false ∧ pre.slow = none ∧
    pre.cfg.sched = .preemptive := by decide

/-- `SlowTickRunsTheTimeoutGuard`, `StepsKeepTheTimerBelowTheThreshold`: the premise, and each row at its edge (threshold 4):
empty; one byte after none; idle 2 with the same length; idle 3 with the same length. -/
theorem witness_guard : base.cfg.timeoutOk = true ∧ TimerBelow base ∧ TimerBelow { base with q := [7], idleT := 3, lastCnt := 1 } ∧
    ([] : List Byte).length = 0 ∧ 0 < [(7 : Byte)].length ∧ 0 < [(7 : Byte)].length ∧ [(7 : Byte)].length ≤ 1 ∧
    2 + 1 < base.cfg.timeoutTicks ∧ base.cfg.timeoutTicks ≤ 3 + 1 := by
  simp only [TimerBelow]
  decide

/-- `StepsKeepTheTimerIdle`, `StepsKeepTheQueueWithinItsCapacity`. -/
theorem witness_env_invariants : TimerIdle base ∧ QueueWithin { base with q := [1, 2, 3], cfg := { base.cfg with qcap := some 3 } } ∧
    (next? (step (base.withFetchWord 32 0x04000001))).isSome := by
  refine ⟨fun _ => rfl, ?_, by decide⟩
  rintro n ⟨⟩
  decide

/-- `QuantizerLanesAreIndependent`: two states that differ on the other channels and on all of Pending, with the flag set and
with it clear; and two that agree on the channel's Pending. -/
theorem witness_lanes : let a : State := { base with upd := true, ti := ⟨100, 5, 6⟩, err := ⟨3, 1, 2⟩, pend := ⟨9, 8, 7⟩ }
    base.cfg.sched = .atomic ∧ a.ti.get .r = ({ a with ti := ⟨100, 0, 0⟩ } : State).ti.get .r ∧
    a.err.get .r = ({ a with err := ⟨3, 0, 0⟩, pend := ⟨0, 0, 0⟩ } : State).err.get .r ∧
    a.pend.get .r = ({ a with pend := ⟨9, 0, 0⟩ } : State).pend.get .r ∧
    (next? (exec .stick a)).isSome ∧ (next? (exec .stick { a with upd := false })).isSome ∧
    (next? (exec .stick { a with pend := ⟨0, 0, 0⟩ })).isSome := by decide

/-- `OutputsAverageToTheTargets`, `SixteenRunsRoundUpRemTimes`, `OutOfContractTargetsAreDimmer`, `RemainderZeroGivesOneTransient`:
the least width, the ends of the accumulator's range, and of the steady window of 4095 and of 4080. -/
theorem witness_streams : 6 ≤ 6 ∧ -16 ≤ (-16 : Int) ∧ (14 : Int) ≤ 14 ∧
    (remValue 4095 : Int) - 16 ≤ -1 ∧ (14 : Int) ≤ (remValue 4095 : Int) - 1 ∧
    4080 ≤ (4095 : Intensity).toNat ∧ 4080 ≤ (4080 : Intensity).toNat ∧
    (remValue 4080 : Int) - 16 ≤ -16 ∧ (-1 : Int) ≤ (remValue 4080 : Int) - 1 ∧
    remValue 4080 = 0 ∧ 0 ≤ (0 : Int) ∧ 0 ≤ (14 : Int) := by decide

/-- `NarrowAccumulatorGivesTheSameError`: the widths where its clauses meet, and an output of 256. -/
theorem witness_narrow : 12 ≤ 12 ∧ 12 < 13 ∧ 6 ≤ 6 ∧ (quantOut 0 4080).toNat = 256 := by decide

/-- `CommandWritesTheThreeTargets`, `CommandIsIdempotent`: both granularities. -/
theorem witness_command : base.bg = none ∧ base.cfg.sched = .atomic ∧ pre.bg = none ∧ pre.cfg.sched = .preemptive ∧
    pre.slow = none := by decide

/-- `EnqueueAppendsTheByte`: an unbounded queue, and a bounded one with room for one byte. -/
theorem witness_enqueue : (∀ n, base.cfg.qcap = some n → base.q.length < n) ∧
    (∀ n, ({ base.cfg with qcap := some 3 } : Config).qcap = some n → [(1 : Byte), 2].length < n) := by
  refine ⟨fun n h => (by cases h), ?_⟩
  rintro n ⟨⟩
  decide

/-- `PollAppliesTheOldestThreeBytes`, `PollWithAPartialMessageDoesNothing`: three bytes, and two. -/
theorem witness_poll : ({ base with q := [1, 2, 3] } : State).q = 1 :: 2 :: 3 :: [] ∧ base.bg = none ∧
    ({ pre with q := [1, 2] } : State).q.length < 3 ∧ pre.bg = none ∧ pre.slow = none := by decide

/-- `BytesInTwoBurstsMakeOneMessage`, `StalledBytesAreNotPrepended`: an empty queue with 0 and 3 slow ticks of threshold 4, and
two stalled bytes. -/
theorem witness_bursts : base.quiet = true ∧ base.cfg.sched = .atomic ∧ base.cfg.wf = true ∧ base.q = [] ∧ TimerIdle base ∧
    0 < base.cfg.timeoutTicks ∧ 3 < base.cfg.timeoutTicks ∧ TimerBelow { base with q := [7, 8], lastCnt := 2 } :=
  ⟨by decide, by decide, by decide, by decide, fun _ => rfl, by decide, by decide, by simp only [TimerBelow]; decide⟩

/-- `StepsLeaveTheGammaTable`, `ActiveChangesOnlyAtABoundary`: a boundary step that changes Active, and a `RESET` that does. -/
theorem witness_active :
    (next? (step ({ base with cnt := 255, pend := ⟨1, 0, 0⟩ }.withFetchWord 32 0x01000000))).map (fun t => t.act) = some ⟨1, 0, 0⟩ ∧
    (next? (step ({ base with act := ⟨1, 0, 0⟩ }.withFetchWord 32 0x06000000))).map (fun t => t.act) = some ⟨0, 0, 0⟩ := by decide

/-- `MicroStepsFollowPriority`: each clause. -/
theorem witness_priority : ({ pre with slow := some .test } : State).slow.isSome = true ∧
    ({ pre with bg := some .poll } : State).slow = none := by decide

/-- `FastTickDoesNotDisturbASuspendedSlowTick`, `FlagSetBetweenTestAndClearIsAbsorbed`. -/
theorem witness_suspended : (SlowPos.read .g ≠ .test ∧ SlowPos.read .g ≠ .clear true) ∧
    (next? (exec .ftick { pre with slow := some (.read .g) })).isSome ∧
    ({ pre with slow := some (.clear true), cnt := 255 } : State).cnt = 255 := by decide

/-- `SameEdgeEventsFollowPriority`: each clause: a reset, no strobe, all three strobes at a boundary, a `STICK` and a `CMD` with
the flag set, a tick and a command without a `STICK`. -/
theorem witness_edge : (⟨true, false, false, false, 0, 0, 0⟩ : Ports).rst = true ∧
    edgeEvents ⟨false, false, false, false, 0, 0, 0⟩ = [] ∧
    base.slow = none ∧ base.bg = none ∧ base.cfg.sched = .atomic ∧
    ((⟨false, true, true, true, 1, 2, 3⟩ : Ports).ftick = true ∧ ({ base with cnt := 255 } : State).cnt = 255) ∧
    ((⟨false, false, true, true, 1, 2, 3⟩ : Ports).stick = true ∧ ({ base with upd := true } : State).upd = true) ∧
    (⟨false, true, false, true, 1, 2, 3⟩ : Ports).stick = false := by decide

end Sys2Proof.Tests
end

/-! Proofs about the state as a whole: who writes what (R34), what every step keeps (R36 to R38), and reset (R35). -/

namespace Sys2Proof.Machine

open Sys2Proof Sys2Proof.Safety

/-! ## What an operation and a step leave alone -/

theorem exec_ftick_iff {s t : State} : exec .ftick s = .next t ↔ t = fastTick s := by
  simp [exec, execFtick, eq_comm]

theorem exec_reset_iff {s t : State} : exec .reset s = .next t ↔ t = s.applyReset := by
  simp [exec, execReset, eq_comm]

/-- A fast tick that changes Active is a boundary (R122). -/
theorem nextCount_eq_zero_of_fastTick_act_ne {s : State} (h : (fastTick s).act ≠ s.act) : nextCount s.cnt = 0#8 := by
  by_contra hb
  exact h (by simp [hb])

/-- One poll applies the oldest three bytes as a message, or finds fewer and does nothing (R172). -/
theorem pollOnce_cases (s : State) :
    (∃ r g b rest, s.q = r :: g :: b :: rest ∧ pollOnce s = applyMessage r g b (takeMessage rest s)) ∨
    (s.q.length < 3 ∧ pollOnce s = s) := by
  match hq : s.q with
  | [] => right; simp [pollOnce, hq]
  | [_] => right; simp [pollOnce, hq]
  | [_, _] => right; simp [pollOnce, hq]
  | r :: g :: b :: rest => left; exact ⟨r, g, b, rest, rfl, by simp [pollOnce, hq]⟩

/-- What a poll leaves alone: all but the targets, the queue and the idle timer (R34). -/
theorem pollOnce_frame (s : State) :
    (pollOnce s).err = s.err ∧ (pollOnce s).pend = s.pend ∧ (pollOnce s).act = s.act ∧ (pollOnce s).cnt = s.cnt ∧
    (pollOnce s).upd = s.upd ∧ (pollOnce s).out = s.out ∧ (pollOnce s).lastCnt = s.lastCnt ∧
    (pollOnce s).slow = s.slow ∧ (pollOnce s).bg = s.bg ∧ (pollOnce s).cfg = s.cfg := by
  rcases pollOnce_cases s with ⟨r, g, b, rest, -, h⟩ | ⟨-, h⟩ <;> simp [h, applyMessage, takeMessage]

/-- No operation writes the configuration (R10, R31). -/
theorem exec_cfg {i : Instr} {s t : State} (h : exec i s = .next t) : t.cfg = s.cfg := by
  rcases exec_next_cases h with
    ⟨-, rfl⟩ | ⟨-, -, -, rfl⟩ | ⟨-, -, -, rfl⟩ | ⟨r, g, b, -, -, -, rfl⟩ | ⟨r, g, b, -, -, -, rfl⟩ | ⟨x, -, -, rfl⟩ |
    ⟨-, -, -, rfl⟩ | ⟨-, -, -, rfl⟩ | ⟨-, rfl⟩
  · simp [fastTick_frame]
  · simp [slowTick_frame]
  · rfl
  · rfl
  · rfl
  · rfl
  · simp [pollOnce_frame]
  · rfl
  · rfl

end Sys2Proof.Machine

namespace Sys2Proof.Proofs

open Sys2Proof Sys2Proof.Machine Sys2Proof.Safety

/-- Settles O53, by the frame of each operation. -/
theorem operationsWriteOnlyWhatTheyOwn : Obligations.OperationsWriteOnlyWhatTheyOwn := by
  intro i s t h
  rcases exec_next_cases h with
    ⟨rfl, rfl⟩ | ⟨rfl, -, -, rfl⟩ | ⟨rfl, -, -, rfl⟩ | ⟨r, g, b, rfl, -, -, rfl⟩ | ⟨r, g, b, rfl, -, -, rfl⟩ |
    ⟨x, rfl, -, rfl⟩ | ⟨rfl, -, -, rfl⟩ | ⟨rfl, -, -, rfl⟩ | ⟨rfl, rfl⟩
  · simp [fastTick_frame]
  · simp [slowTick_frame]
  · simp
  · simp [applyMessage]
  · simp
  · simp [State.appendByte]
  · simp [pollOnce_frame]
  · simp
  · simp

end Sys2Proof.Proofs

namespace Sys2Proof.Machine

open Sys2Proof Sys2Proof.Safety

/-- An operation other than a fast tick and a reset leaves the generator's registers alone (R34). -/
theorem exec_generator_frame {i : Instr} {s t : State} (h : exec i s = .next t) (hf : i ≠ .ftick) (hr : i ≠ .reset) :
    t.act = s.act ∧ t.cnt = s.cnt ∧ t.out = s.out := by
  obtain ⟨-, -, hgen, -⟩ := Proofs.operationsWriteOnlyWhatTheyOwn i s t h
  by_contra hne
  rcases hgen (by tauto) with h | h
  · exact hf h
  · exact hr h

/-- What an invariant has to be shown for so that every step keeps it: it does not speak of the trace, and under its condition
on the configuration, which no step writes, every operation and every micro-step keeps it. -/
theorem step_keeps {C : Config → Prop} {P : State → Prop}
    (hinputs : ∀ s trace pos gaps, P s → P { s with trace := trace, pos := pos, gaps := gaps })
    (hexec : ∀ i s t, C s.cfg → P s → exec i s = .next t → P t)
    (hmicro : ∀ s, C s.cfg → P s → P (microStep s))
    {s t : State} (hs : C s.cfg ∧ P s) (h : step s = .next t) : C t.cfg ∧ P t := by
  obtain ⟨hC, hP⟩ := hs
  rcases step_next_cases h with ⟨i, rest, -, -, he⟩ | ⟨-, rfl⟩
  · have hcfg : t.cfg = (s.consume rest).cfg := exec_cfg he
    exact ⟨hcfg ▸ hC, hexec i (s.consume rest) t hC (hinputs s rest _ _ hP) he⟩
  · rcases s.proceed_cases with ⟨-, hp⟩ | ⟨-, hp⟩ <;> rw [hp]
    · obtain ⟨-, -, -, hcfg, -⟩ := microStep_frame (s.setGaps (countGap s.gaps))
      exact ⟨hcfg ▸ hC, hmicro _ hC (hinputs s s.trace s.pos _ hP)⟩
    · exact ⟨hC, hP⟩

end Sys2Proof.Machine

namespace Sys2Proof.Safety

open Sys2Proof Sys2Proof.Machine

/-! ## The output law (R37) -/

/-- The output law speaks of the generator's registers only. -/
theorem OutputLaw.congr {s t : State} (h : OutputLaw s) (ha : t.act = s.act) (hc : t.cnt = s.cnt) (ho : t.out = s.out) :
    OutputLaw t := by
  simpa only [OutputLaw, ha, hc, ho] using h

/-- At a boundary every channel goes on but for those whose new active value is 0, whatever was before (R122, R123). -/
theorem fastTick_outputLaw_of_boundary {s : State} (hb : nextCount s.cnt = 0#8) : OutputLaw (fastTick s) := by
  intro ch
  rw [fastTick_out, fastTick_cnt, hb]
  generalize (fastTick s).act.get ch = a
  by_cases ha : a = 0#8
  · simp [ha]
  · have hpos : a.toNat ≠ 0 := fun h0 => ha (BitVec.eq_of_toNat_eq (by simpa using h0))
    simp only [ha, if_false, if_true, true_iff, BitVec.toNat_ofNat]
    omega

/-- Inside a cycle the count grows by one, and the channel whose active value it reaches goes off (R123). -/
theorem fastTick_outputLaw_of_inside {s : State} (hb : nextCount s.cnt ≠ 0#8) (h : OutputLaw s) :
    OutputLaw (fastTick s) := by
  intro ch
  have hlaw := h ch
  have hcnt : (nextCount s.cnt).toNat = s.cnt.toNat + 1 := by
    have h0 : (nextCount s.cnt).toNat ≠ 0 := fun h0 => hb (BitVec.eq_of_toNat_eq (by simpa using h0))
    have hlt := s.cnt.isLt
    rw [nextCount_toNat] at h0 ⊢
    omega
  simp only [fastTick_out, fastTick_act, fastTick_cnt, hb, if_false]
  by_cases ha : s.act.get ch = nextCount s.cnt
  · simp [ha]
  · have hne : (s.act.get ch).toNat ≠ s.cnt.toNat + 1 := fun h1 => ha (BitVec.eq_of_toNat_eq (h1.trans hcnt.symm))
    simp only [ha, if_false, hlaw, hcnt]
    omega

theorem fastTick_keeps_outputLaw {s : State} (h : OutputLaw s) : OutputLaw (fastTick s) := by
  by_cases hb : nextCount s.cnt = 0#8
  · exact fastTick_outputLaw_of_boundary hb
  · exact fastTick_outputLaw_of_inside hb h

theorem exec_keeps_outputLaw {i : Instr} {s t : State} (hc : OutputResetOk s.cfg) (h : OutputLaw s)
    (he : exec i s = .next t) : OutputLaw t := by
  by_cases hf : i = .ftick
  · obtain rfl := exec_ftick_iff.1 (hf ▸ he)
    exact fastTick_keeps_outputLaw h
  by_cases hr : i = .reset
  · obtain rfl := exec_reset_iff.1 (hr ▸ he)
    exact hc
  · obtain ⟨ha, hcnt, ho⟩ := exec_generator_frame he hf hr
    exact h.congr ha hcnt ho

theorem microStep_keeps_outputLaw {s : State} (h : OutputLaw s) : OutputLaw (microStep s) := by
  obtain ⟨ha, hcnt, ho, -⟩ := microStep_frame s
  exact h.congr ha hcnt ho

/-! ## The registers in their widths (R22, R187) -/

theorem RegistersFit.congr {s t : State} (h : RegistersFit s) (he : t.err = s.err) (hi : t.idleT = s.idleT)
    (hc : t.cfg = s.cfg) : RegistersFit t := by
  simpa only [RegistersFit, he, hi, hc] using h

/-- Writing 0 to the idle timer and leaving the accumulators keeps both in their widths. -/
theorem RegistersFit.of_idle_zero {s t : State} (h : RegistersFit s) (he : t.err = s.err) (hi : t.idleT = 0)
    (hc : t.cfg = s.cfg) : RegistersFit t := by
  obtain ⟨herr, -⟩ := h
  simp only [RegistersFit, he, hi, hc]
  exact ⟨herr, Nat.two_pow_pos _⟩

theorem signedFits_zero (w : Nat) : SignedFits w 0 := by
  simp [SignedFits]

theorem errOf_fits (w : Nat) (e : Int) (t : Intensity) (out : QuantOut) : SignedFits w (errOf w e t out) :=
  narrowErr_fits w _

/-- The guard leaves the idle timer in its width, wherever it found it (R174, R187). -/
theorem guardStep_idleT_lt (s : State) : (guardStep s).idleT < 2 ^ s.cfg.idleW := by
  have hpos := Nat.two_pow_pos s.cfg.idleW
  rcases guardStep_env s with ⟨-, -, hi, -⟩ | ⟨-, -, -, hi, -⟩ | ⟨-, -, -, hi, -⟩ <;> rw [hi]
  · exact hpos
  · rw [guardTimer]
    split
    · exact hpos
    · exact nextIdle_lt _ _
  · exact hpos

theorem guardStep_keeps_registersFit {s : State} (h : RegistersFit s) : RegistersFit (guardStep s) := by
  obtain ⟨-, he, -, -, -, -, -, -, -, hc, -⟩ := guardStep_frame s
  obtain ⟨herr, -⟩ := h
  simp only [RegistersFit, he, hc]
  exact ⟨herr, guardStep_idleT_lt s⟩

theorem updateErr_keeps_registersFit (ch : Channel) (t : Intensity) (out : QuantOut) {s : State} (h : RegistersFit s) :
    RegistersFit (updateErr ch t out s) := by
  obtain ⟨herr, hidle⟩ := h
  refine ⟨fun c => ?_, hidle⟩
  simp only [updateErr, State.setErr_cfg, State.setErr_err, PerCh.get_set]
  split
  · exact errOf_fits _ _ _ _
  · exact herr c

/-- Quantizing a channel writes Pending, of which the widths do not speak, and updates the accumulator. -/
theorem quantizeChannel_keeps_registersFit (ch : Channel) {s : State} (h : RegistersFit s) :
    RegistersFit (quantizeChannel ch s) :=
  updateErr_keeps_registersFit ch _ _ (h.congr rfl rfl rfl : RegistersFit (writePend ch _ s))

theorem quantizer_keeps_registersFit {s : State} (h : RegistersFit s) : RegistersFit (quantizer s) := by
  rw [quantizer]
  split
  · have hclear : RegistersFit (clearUpd s) := h.congr rfl rfl rfl
    exact quantizeChannel_keeps_registersFit .b
      (quantizeChannel_keeps_registersFit .g (quantizeChannel_keeps_registersFit .r hclear))
  · exact h

theorem pollOnce_keeps_registersFit {s : State} (h : RegistersFit s) : RegistersFit (pollOnce s) := by
  rcases pollOnce_cases s with ⟨r, g, b, rest, -, hp⟩ | ⟨-, hp⟩ <;> rw [hp]
  · exact h.of_idle_zero rfl rfl rfl
  · exact h

theorem applyReset_registersFit (s : State) : RegistersFit s.applyReset := by
  rw [State.applyReset_eq]
  exact ⟨fun ch => by simpa using signedFits_zero _, Nat.two_pow_pos _⟩

theorem exec_keeps_registersFit {i : Instr} {s t : State} (h : RegistersFit s) (he : exec i s = .next t) :
    RegistersFit t := by
  rcases exec_next_cases he with
    ⟨-, rfl⟩ | ⟨-, -, -, rfl⟩ | ⟨-, -, -, rfl⟩ | ⟨r, g, b, -, -, -, rfl⟩ | ⟨r, g, b, -, -, -, rfl⟩ | ⟨x, -, -, rfl⟩ |
    ⟨-, -, -, rfl⟩ | ⟨-, -, -, rfl⟩ | ⟨-, rfl⟩
  · obtain ⟨-, herr, -, -, hidle, -, -, -, hcfg, -⟩ := fastTick_frame s
    exact h.congr herr hidle hcfg
  · exact guardStep_keeps_registersFit (quantizer_keeps_registersFit h)
  · exact h.congr rfl rfl rfl
  · exact h.congr rfl rfl rfl
  · exact h.congr rfl rfl rfl
  · exact h.congr rfl rfl rfl
  · exact pollOnce_keeps_registersFit h
  · exact h.congr rfl rfl rfl
  · exact applyReset_registersFit s

theorem slowMicro_keeps_registersFit (p : SlowPos) {s : State} (h : RegistersFit s) : RegistersFit (slowMicro p s) := by
  cases p with
  | test => exact h.congr rfl rfl rfl
  | clear u => cases u <;> exact h.congr rfl rfl rfl
  | read ch => exact h.congr rfl rfl rfl
  | write ch t => exact h.congr rfl rfl rfl
  | update ch t out => exact (updateErr_keeps_registersFit ch t out h).congr rfl rfl rfl
  | guard => exact (guardStep_keeps_registersFit h).congr rfl rfl rfl

theorem bgMicro_keeps_registersFit (p : BgPos) {s : State} (h : RegistersFit s) : RegistersFit (bgMicro p s) := by
  cases p with
  | poll =>
    simp only [bgMicro]
    split
    · exact h.of_idle_zero rfl rfl rfl
    · exact h.congr rfl rfl rfl
  | lookup r g b => exact h.congr rfl rfl rfl
  | store ch v => exact h.congr rfl rfl rfl

theorem microStep_keeps_registersFit {s : State} (h : RegistersFit s) : RegistersFit (microStep s) := by
  rcases microStep_cases s with ⟨p, -, hm⟩ | ⟨p, -, -, hm⟩ | ⟨-, -, hm⟩ <;> rw [hm]
  · exact slowMicro_keeps_registersFit p h
  · exact bgMicro_keeps_registersFit p h
  · exact h

/-! ## Targets in contract (R38) -/

theorem TargetsInContract.congr {s t : State} (h : TargetsInContract s) (ht : t.ti = s.ti) (hb : t.bg = s.bg) :
    TargetsInContract t := by
  simpa only [TargetsInContract, ht, hb] using h

/-- With no looked-up word on its way, the targets alone decide. -/
theorem targetsInContract_of_noStore {s : State} (ht : ∀ ch, (s.ti.get ch).toNat ≤ 4080)
    (hb : ∀ c v, s.bg ≠ some (.store c v)) : TargetsInContract s :=
  ⟨ht, fun c v h => absurd h (hb c v)⟩

/-- Every word of a looked-up message is in contract under a table in contract (R112). -/
theorem lookupMessage_inContract {s : State} (hg : GammaInContract s.cfg) (r g b : Byte) (ch : Channel) :
    ((s.lookupMessage r g b).get ch).toNat ≤ 4080 := by
  cases ch <;> exact hg _ _

theorem applyMessage_keeps_targetsInContract {s : State} (hg : GammaInContract s.cfg) (r g b : Byte)
    (h : TargetsInContract s) : TargetsInContract (applyMessage r g b s) := by
  obtain ⟨-, hwords⟩ := h
  exact ⟨lookupMessage_inContract hg r g b, hwords⟩

theorem pollOnce_keeps_targetsInContract {s : State} (hg : GammaInContract s.cfg) (h : TargetsInContract s) :
    TargetsInContract (pollOnce s) := by
  rcases pollOnce_cases s with ⟨r, g, b, rest, -, hp⟩ | ⟨-, hp⟩ <;> rw [hp]
  · have htake : TargetsInContract (takeMessage rest s) := h.congr rfl rfl
    exact applyMessage_keeps_targetsInContract hg r g b htake
  · exact h

theorem exec_keeps_targetsInContract {i : Instr} {s t : State} (hc : ContractConfig s.cfg) (h : TargetsInContract s)
    (he : exec i s = .next t) : TargetsInContract t := by
  obtain ⟨hgamma, hreset⟩ := hc
  have ⟨hti, _⟩ := h
  rcases exec_next_cases he with
    ⟨-, rfl⟩ | ⟨-, -, -, rfl⟩ | ⟨-, -, -, rfl⟩ | ⟨r, g, b, -, -, -, rfl⟩ | ⟨r, g, b, -, -, -, rfl⟩ | ⟨x, -, -, rfl⟩ |
    ⟨-, -, -, rfl⟩ | ⟨-, -, -, rfl⟩ | ⟨-, rfl⟩
  · obtain ⟨ht, -, -, -, -, -, -, hb, -⟩ := fastTick_frame s
    exact h.congr ht hb
  · obtain ⟨ht, -, -, -, -, hb, -⟩ := slowTick_frame s
    exact h.congr ht hb
  · exact h.congr rfl rfl
  · exact applyMessage_keeps_targetsInContract hgamma r g b h
  · exact targetsInContract_of_noStore hti (by simp)
  · exact h.congr rfl rfl
  · exact pollOnce_keeps_targetsInContract hgamma h
  · exact targetsInContract_of_noStore hti (by simp)
  · exact targetsInContract_of_noStore hreset (by simp [State.applyReset_eq])

/-- The store of a looked-up word: the word was in contract on its way, and the rest of the message stays on its way. -/
theorem store_keeps_targetsInContract {s : State} {c : Channel} {v : PerCh Intensity} (h : TargetsInContract s)
    (hb : s.bg = some (.store c v)) : TargetsInContract (bgMicro (.store c v) s) := by
  obtain ⟨hti, hwords⟩ := h
  have hv := hwords c v hb
  refine ⟨fun ch => ?_, fun c' v' hnext => ?_⟩
  · simp only [bgMicro, State.setBg_ti, State.setTi_ti, PerCh.get_set]
    split
    · exact hv c
    · exact hti ch
  · have hsame : v = v' := by cases c <;> simp_all [bgMicro, bgAfter, Channel.succ]
    exact hsame ▸ hv

theorem bgMicro_keeps_targetsInContract {s : State} {p : BgPos} (hg : GammaInContract s.cfg) (h : TargetsInContract s)
    (hb : s.bg = some p) : TargetsInContract (bgMicro p s) := by
  have ⟨hti, _⟩ := h
  cases p with
  | poll =>
    simp only [bgMicro]
    split
    · exact targetsInContract_of_noStore hti (by simp)
    · exact targetsInContract_of_noStore hti (by simp)
  | lookup r g b =>
    refine ⟨hti, ?_⟩
    rintro c v ⟨⟩
    exact lookupMessage_inContract hg r g b
  | store c v => exact store_keeps_targetsInContract h hb

theorem microStep_keeps_targetsInContract {s : State} (hg : GammaInContract s.cfg) (h : TargetsInContract s) :
    TargetsInContract (microStep s) := by
  rcases microStep_cases s with ⟨p, -, hm⟩ | ⟨p, -, hb, hm⟩ | ⟨-, -, hm⟩ <;> rw [hm]
  · obtain ⟨ht, -, -, -, hb, -⟩ := slowMicro_frame p s
    exact h.congr ht hb
  · exact bgMicro_keeps_targetsInContract hg h hb
  · exact h

end Sys2Proof.Safety

namespace Sys2Proof.Proofs

open Sys2Proof Sys2Proof.Machine Sys2Proof.Safety

/-- Settles O20: a fast tick moves the count across at most one active value, and only `RESET` writes the generator's registers
besides. -/
theorem stepsKeepTheOutputLaw : Obligations.StepsKeepTheOutputLaw := fun _ _ =>
  step_keeps (fun _ _ _ _ h => h) (fun _ _ _ => exec_keeps_outputLaw) (fun _ _ => microStep_keeps_outputLaw)

/-- Settles O25: each write of an accumulator or of the idle timer is narrowed to its width, or writes 0. -/
theorem stepsKeepTheRegistersInTheirWidths : Obligations.StepsKeepTheRegistersInTheirWidths := fun _ _ h he =>
  (step_keeps (C := fun _ => True) (fun _ _ _ _ h => h) (fun _ _ _ _ => exec_keeps_registersFit)
    (fun _ _ => microStep_keeps_registersFit) ⟨trivial, h⟩ he).2

/-- Settles O51: a target is written with a looked-up word, at once or on its way through a suspended command, or at reset. -/
theorem stepsKeepTargetsInContract : Obligations.StepsKeepTargetsInContract := fun _ _ =>
  step_keeps (fun _ _ _ _ h => h) (fun _ _ _ => exec_keeps_targetsInContract)
    (fun _ hc => microStep_keeps_targetsInContract hc.1)

/-- Settles O19: the wrapped count is 0, and a boundary leaves on exactly the channels with an active value above 0. -/
theorem boundaryEstablishesTheOutputLaw : Obligations.BoundaryEstablishesTheOutputLaw := by
  intro s hs
  exact ⟨fastTick s, exec_ftick_iff.2 rfl, fastTick_outputLaw_of_boundary (by rw [hs]; rfl)⟩

/-- Settles O52: by ownership only a fast tick or a reset writes Active in an event's step, and no micro-step does. -/
theorem activeChangesOnlyAtABoundary : Obligations.ActiveChangesOnlyAtABoundary := by
  intro s t h hne
  rcases step_next_cases h with ⟨i, rest, -, hd, he⟩ | ⟨-, rfl⟩
  · obtain ⟨-, -, hgen, -⟩ := operationsWriteOnlyWhatTheyOwn i _ t he
    rcases hgen (Or.inl hne) with rfl | rfl
    · left
      obtain rfl := exec_ftick_iff.1 he
      have hb : nextCount (s.consume rest).cnt = 0#8 := nextCount_eq_zero_of_fastTick_act_ne hne
      exact ⟨rest, hd, (fastTick_cnt _).trans hb, (fastTick_act _).trans (if_pos hb), (fastTick_upd _).trans (if_pos hb)⟩
    · right
      obtain rfl := exec_reset_iff.1 he
      exact ⟨rest, hd, rfl⟩
  · exfalso
    rcases s.proceed_cases with ⟨-, hp⟩ | ⟨-, hp⟩ <;> rw [hp] at hne
    · exact hne (microStep_frame _).1
    · exact hne rfl

/-- Settles O13: the boundary and compare actions of the tick leave the incremented count. -/
theorem fastTickAdvancesTheCounter : Obligations.FastTickAdvancesTheCounter := fun s =>
  ⟨fastTick s, exec_ftick_iff.2 rfl, by rw [fastTick_cnt, nextCount_toNat]⟩

/-- Settles O48: the reset values are the defaults of the configuration the machine is reset into. -/
theorem stateAfterReset : Obligations.StateAfterReset :=
  ⟨rfl, rfl, rfl, rfl, rfl, rfl, rfl, rfl, rfl, rfl, rfl, rfl, rfl⟩

end Sys2Proof.Proofs

namespace Sys2Proof.Safety

open Sys2Proof Sys2Proof.Machine

/-! ## Reset (R35) -/

theorem reset_targets_zero (ch : Channel) : (State.reset.ti.get ch).toNat = 0 := by
  cases ch <;> rfl

/-- The free threshold lies in the range of its 8-bit timer (R174, log 3). -/
theorem reset_timeoutOk : State.reset.cfg.timeoutOk = true := by
  have hlt := Config.timeoutPred.isLt
  have ht : State.reset.cfg.timeoutTicks = Config.timeoutPred.val + 1 := rfl
  have hw : State.reset.cfg.idleW = 8 := rfl
  rw [timeoutOk_iff, ht, hw]
  omega

theorem reset_cfg_wf : State.reset.cfg.wf = true :=
  (configWf_iff _).2 ⟨reset_timeoutOk, (fun _ h => nomatch h), by decide⟩

theorem reset_errBounded : ErrBounded State.reset :=
  ⟨fun ch => by cases ch <;> decide, fun _ _ _ h => nomatch h⟩

/-- With the counter and every active value 0 no channel is on (R37). -/
theorem reset_outputResetOk : OutputResetOk State.reset.cfg := fun ch => by
  cases ch <;> decide

end Sys2Proof.Safety

namespace Sys2Proof.Proofs

open Sys2Proof Sys2Proof.Machine Sys2Proof.Safety

/-- Settles O49. A `RESET` changes nothing in the reset state (O48), so what a reset establishes holds there. -/
theorem invariantsHoldAtReset : Obligations.InvariantsHoldAtReset := by
  have hti (ch : Channel) : (State.reset.ti.get ch).toNat ≤ 4080 := (reset_targets_zero ch).le.trans (Nat.zero_le _)
  have htimer : TimerBelow State.reset := Nat.succ_pos Config.timeoutPred.val
  exact ⟨PerCh.get_all 0, reset_errBounded, applyReset_registersFit State.reset, rfl, rfl, reset_outputResetOk,
    reset_outputResetOk, hti, targetsInContract_of_noStore hti (fun _ _ h => nomatch h), reset_cfg_wf, htimer,
    fun _ => rfl, fun _ h => nomatch h⟩

end Sys2Proof.Proofs


/-! Proofs about granularity and preemption: what a fast tick between two micro-steps disturbs (R60, R67, R195), and that an
operation left alone reaches its atomic result (R63, R64). -/

namespace Sys2Proof.Machine

open Sys2Proof Sys2Proof.Safety

/-! ## A fast tick between two micro-steps -/

theorem microStep_of_slow {s : State} {p : SlowPos} (h : s.slow = some p) : microStep s = slowMicro p s := by
  simp [microStep, h]

theorem microStep_of_bg {s : State} {p : BgPos} (hs : s.slow = none) (h : s.bg = some p) : microStep s = bgMicro p s := by
  simp [microStep, hs, h]

/-- The generator writes nothing that the guard reads or writes. -/
theorem guardStep_fastTick_env (s : State) :
    (guardStep (fastTick s)).q = (guardStep s).q ∧ (guardStep (fastTick s)).idleT = (guardStep s).idleT ∧
    (guardStep (fastTick s)).lastCnt = (guardStep s).lastCnt := by
  obtain ⟨-, -, -, hq, hidle, hlast, -, -, hcfg, -⟩ := fastTick_frame s
  exact guardStep_congr hq hidle hlast hcfg

/-- Only the test of the flag sees a fast tick: every later micro-step of a slow tick reads and writes registers that the
generator leaves alone, but for the flag that the clear overwrites (R67). -/
theorem slowMicro_fastTick {p : SlowPos} (hp : p ≠ .test) (s : State) :
    (slowMicro p (fastTick s)).err = (slowMicro p s).err ∧ (slowMicro p (fastTick s)).pend = (slowMicro p s).pend ∧
    (slowMicro p (fastTick s)).slow = (slowMicro p s).slow ∧ (slowMicro p (fastTick s)).bg = (slowMicro p s).bg ∧
    SameEnv (slowMicro p s) (slowMicro p (fastTick s)) := by
  cases p with
  | test => exact absurd rfl hp
  | clear u => cases u <;> simp [slowMicro, clearUpd, SameEnv, fastTick_frame]
  | read ch => simp [slowMicro, SameEnv, fastTick_frame]
  | write ch t => simp [slowMicro, writePend, SameEnv, fastTick_frame]
  | update ch t out => simp [slowMicro, updateErr, SameEnv, fastTick_frame]
  | guard => simp [slowMicro, SameEnv, guardStep_frame, guardStep_fastTick_env, fastTick_frame]

end Sys2Proof.Machine

namespace Sys2Proof.Proofs

open Sys2Proof Sys2Proof.Machine Sys2Proof.Safety

/-- Settles O55: both states stand at the same micro-step, and past the test that does not see the tick. -/
theorem fastTickDoesNotDisturbASuspendedSlowTick : Obligations.FastTickDoesNotDisturbASuspendedSlowTick := by
  intro s t p hslow htest _ ht
  obtain rfl := exec_ftick_iff.1 ht
  have hslow' : (fastTick s).slow = some p := by simp [fastTick_frame, hslow]
  rw [microStep_of_slow hslow, microStep_of_slow hslow']
  exact slowMicro_fastTick htest s

/-- Settles O56: the wrap sets the flag and leaves the suspended tick at its clear, which was decided by the tested value. -/
theorem flagSetBetweenTestAndClearIsAbsorbed : Obligations.FlagSetBetweenTestAndClearIsAbsorbed := by
  intro s hslow hcnt
  have hwrap : nextCount s.cnt = 0#8 := by rw [hcnt]; rfl
  have hslow' : (fastTick s).slow = some (.clear true) := by simp [fastTick_frame, hslow]
  refine ⟨fastTick s, exec_ftick_iff.2 rfl, by simp [hwrap], ?_⟩
  rw [microStep_of_slow hslow']
  exact ⟨rfl, rfl⟩

end Sys2Proof.Proofs

namespace Sys2Proof.Machine

open Sys2Proof Sys2Proof.Safety

/-! ## An operation left alone, micro-step by micro-step (R63) -/

@[simp] theorem State.setSlow_setSlow (s : State) (v w : Option SlowPos) : (s.setSlow v).setSlow w = s.setSlow w := rfl

theorem State.setSlow_eq_self {s : State} {v : Option SlowPos} (h : s.slow = v) : s.setSlow v = s := by
  subst h; rfl

theorem State.setBg_eq_self {s : State} {v : Option BgPos} (h : s.bg = v) : s.setBg v = s := by
  subst h; rfl

/-- The guard does not see which operation is in progress. -/
theorem guardStep_setSlow (v : Option SlowPos) (s : State) : guardStep (s.setSlow v) = (guardStep s).setSlow v := by
  simp only [guardStep, apply_ite (fun t : State => t.setSlow v)]
  rfl

/-- Micro-steps to one state and then on to another (R63). -/
theorem microRun_trans {m n : Nat} {s t u : State} (h₁ : microRun m s = t) (h₂ : microRun n t = u) :
    microRun (m + n) s = u := by
  rw [microRun_add, h₁, h₂]

/-- The last micro-step of every slow tick. -/
theorem microRun_guard (s : State) : microRun 1 (s.setSlow (some .guard)) = (guardStep s).setSlow none := by
  change (guardStep (s.setSlow (some .guard))).setSlow none = _
  rw [guardStep_setSlow, State.setSlow_setSlow]

/-- The nine micro-steps of the three channels are the three quantizations, in the order of R63. -/
theorem microRun_channels (s : State) :
    microRun 9 (s.setSlow (some (.read .r))) =
      (quantizeChannel .b (quantizeChannel .g (quantizeChannel .r s))).setSlow (some .guard) := by
  have hr : microRun 3 (s.setSlow (some (.read .r))) = (quantizeChannel .r s).setSlow (some (.read .g)) :=
    microRun_channel .r s
  have hg (s : State) : microRun 3 (s.setSlow (some (.read .g))) = (quantizeChannel .g s).setSlow (some (.read .b)) :=
    microRun_channel .g s
  have hb (s : State) : microRun 3 (s.setSlow (some (.read .b))) = (quantizeChannel .b s).setSlow (some .guard) :=
    microRun_channel .b s
  exact microRun_trans (m := 6) (n := 3) (microRun_trans (m := 3) (n := 3) hr (hg _)) (hb _)

/-- Test and clear of a slow tick that finds the flag set. -/
theorem microRun_takeFlag {s : State} (h : s.upd = true) :
    microRun 2 (s.setSlow (some .test)) = (clearUpd s).setSlow (some (.read .r)) := by
  change slowMicro (.clear s.upd) _ = _
  rw [h]
  rfl

/-- Test and no clear of a slow tick that finds the flag clear. -/
theorem microRun_skipToGuard {s : State} (h : s.upd = false) :
    microRun 2 (s.setSlow (some .test)) = s.setSlow (some .guard) := by
  change microStep ((s.setSlow (some .test)).setSlow (some (.clear s.upd))) = _
  rw [h]
  rfl

/-- A slow tick left alone is the whole slow tick: 12 micro-steps when it finds the flag set, 3 when it is clear (R63, R140,
R153). -/
theorem microRun_stick {s : State} (hs : s.slow = none) :
    ∃ n ≤ 12, microRun n (s.setSlow (some .test)) = slowTick s := by
  obtain ⟨-, -, -, -, hslow, -⟩ := slowTick_frame s
  have hend : (slowTick s).setSlow none = slowTick s := State.setSlow_eq_self (hslow.trans hs)
  rw [← hend]
  cases hu : s.upd with
  | true =>
    rw [slowTick_of_set hu]
    exact ⟨2 + 9 + 1, le_rfl,
      microRun_trans (microRun_trans (microRun_takeFlag hu) (microRun_channels _)) (microRun_guard _)⟩
  | false =>
    rw [slowTick_of_clear hu]
    exact ⟨2 + 1, by omega, microRun_trans (microRun_skipToGuard hu) (microRun_guard s)⟩

/-- With no slow tick in progress the background operation goes on. -/
theorem microRun_bg {s : State} (hs : s.slow = none) (p : BgPos) :
    microRun 1 (s.setBg (some p)) = bgMicro p (s.setBg (some p)) :=
  microStep_of_bg (s := s.setBg (some p)) hs rfl

/-- The three stores of a command write the whole looked-up message (R63, R160). -/
theorem microRun_stores {s : State} (hs : s.slow = none) (v : PerCh Intensity) :
    microRun 3 (s.setBg (some (.store .r v))) = (s.setTi v).setBg none := by
  have hstore (ch : Channel) {s : State} (hs : s.slow = none) :
      microRun 1 (s.setBg (some (.store ch v))) = (s.setTi (s.ti.set ch (v.get ch))).setBg (bgAfter ch v) :=
    microRun_bg hs _
  exact microRun_trans (m := 2) (n := 1) (microRun_trans (m := 1) (n := 1) (hstore .r hs) (hstore .g hs)) (hstore .b hs)

/-- A command left alone is the whole command: the lookup and the stores (R63, R160). -/
theorem microRun_cmd {s : State} (hs : s.slow = none) (hb : s.bg = none) (r g b : Byte) :
    microRun 4 (s.setBg (some (.lookup r g b))) = applyMessage r g b s := by
  have hlookup : microRun 1 (s.setBg (some (.lookup r g b))) = s.setBg (some (.store .r (s.lookupMessage r g b))) :=
    microRun_bg hs _
  have hend : (applyMessage r g b s).setBg none = applyMessage r g b s :=
    State.setBg_eq_self (s := applyMessage r g b s) hb
  exact (microRun_trans (m := 1) (n := 3) hlookup (microRun_stores hs _)).trans hend

/-- A poll left alone is the whole poll: a dequeue and a command with three bytes and more, an end at once with fewer (R63,
R172). -/
theorem microRun_poll {s : State} (hs : s.slow = none) (hb : s.bg = none) :
    ∃ n ≤ 5, microRun n (s.setBg (some .poll)) = pollOnce s := by
  match hq : s.q with
  | r :: g :: b :: rest =>
    have htake : microRun 1 (s.setBg (some .poll)) = (takeMessage rest s).setBg (some (.lookup r g b)) := by
      rw [microRun_bg hs]
      simp only [bgMicro, State.setBg_q, hq]
      rfl
    have happly : microRun 4 ((takeMessage rest s).setBg (some (.lookup r g b))) = pollOnce s := by
      rw [microRun_cmd (s := takeMessage rest s) hs hb]
      simp only [pollOnce, hq]
    exact ⟨1 + 4, le_rfl, microRun_trans htake happly⟩
  | [] | [_] | [_, _] =>
    refine ⟨1, by omega, ?_⟩
    rw [microRun_bg hs]
    simp only [bgMicro, pollOnce, State.setBg_q, hq]
    exact State.setBg_eq_self hb

/-! ## No meaning sees the granularity (R64) -/

theorem withSched_preemptive_atomic {s : State} (h : s.cfg.sched = .preemptive) :
    withSched .preemptive (withSched .atomic s) = s := by
  simp only [withSched, ← h]

theorem fastTick_withSched (c : Sched) (s : State) : fastTick (withSched c s) = withSched c (fastTick s) := by
  have h : boundaryActions (advanceCount (withSched c s)) = withSched c (boundaryActions (advanceCount s)) := by
    simp only [boundaryActions, apply_ite (withSched c)]
    rfl
  rw [fastTick, h]
  rfl

theorem guardStep_withSched (c : Sched) (s : State) : guardStep (withSched c s) = withSched c (guardStep s) := by
  simp only [guardStep, apply_ite (withSched c)]
  rfl

theorem quantizer_withSched (c : Sched) (s : State) : quantizer (withSched c s) = withSched c (quantizer s) := by
  simp only [quantizer, apply_ite (withSched c)]
  rfl

theorem slowTick_withSched (c : Sched) (s : State) : slowTick (withSched c s) = withSched c (slowTick s) := by
  rw [slowTick, quantizer_withSched, guardStep_withSched, slowTick]

theorem pollOnce_withSched (c : Sched) (s : State) : pollOnce (withSched c s) = withSched c (pollOnce s) := by
  have hq : (withSched c s).q = s.q := rfl
  match h : s.q with
  | r :: g :: b :: rest => simp only [pollOnce, hq, h]; rfl
  | [] | [_] | [_, _] => simp only [pollOnce, hq, h]

/-! ## Preemptive and atomic executions (R64) -/

/-- Started and left alone, the operation reaches in at most 12 micro-steps the state that the atomic step gives. -/
def ReachesAtomicResult (i : Instr) (s : State) : Prop :=
  ∃ t u n, n ≤ 12 ∧ exec i s = .next t ∧ exec i (withSched .atomic s) = .next u ∧ microRun n t = withSched .preemptive u

/-- An operation whose atomic step has the meaning `F`, which does not see the granularity, reaches its atomic result when its
preemptive start runs on to `F`. -/
theorem reachesAtomicResult_of_meaning {i : Instr} {s t : State} {n : Nat} (F : State → State)
    (hF : ∀ c s, F (withSched c s) = withSched c (F s)) (hpre : s.cfg.sched = .preemptive) (hn : n ≤ 12)
    (hstart : exec i s = .next t) (hatomic : exec i (withSched .atomic s) = .next (F (withSched .atomic s)))
    (hrun : microRun n t = F s) : ReachesAtomicResult i s := by
  refine ⟨t, F (withSched .atomic s), n, hn, hstart, hatomic, ?_⟩
  rw [← hF, withSched_preemptive_atomic hpre, hrun]

/-- With nothing in progress every operation reaches its atomic result, but for the arrival of a byte at a full queue. -/
theorem reachesAtomicResult_of_quiet {i : Instr} {s : State} (hs : s.slow = none) (hb : s.bg = none)
    (hpre : s.cfg.sched = .preemptive) (hroom : (∃ x, i = .enq x) → s.queueFull = false) : ReachesAtomicResult i s := by
  cases i with
  | ftick => exact reachesAtomicResult_of_meaning fastTick fastTick_withSched hpre (Nat.zero_le _) rfl rfl rfl
  | stick =>
    obtain ⟨n, hn, hrun⟩ := microRun_stick hs
    exact reachesAtomicResult_of_meaning slowTick slowTick_withSched hpre hn (by simp [exec, execStick, hs, hpre])
      (by simp [exec, execStick, withSched, hs]) hrun
  | cmd r g b =>
    exact reachesAtomicResult_of_meaning (applyMessage r g b) (fun _ _ => rfl) hpre (by omega)
      (by simp [exec, execCmd, hb, hpre]) (by simp [exec, execCmd, withSched, hb]) (microRun_cmd hs hb r g b)
  | enq x =>
    have hfull := hroom ⟨x, rfl⟩
    have hfull' : (withSched .atomic s).queueFull = false := hfull
    exact reachesAtomicResult_of_meaning (t := s.appendByte x) (fun s => s.appendByte x) (fun _ _ => rfl) hpre
      (Nat.zero_le _) (by simp [exec, execEnq, hfull]) (by simp [exec, execEnq, hfull']) rfl
  | bgpoll =>
    obtain ⟨n, hn, hrun⟩ := microRun_poll hs hb
    exact reachesAtomicResult_of_meaning pollOnce pollOnce_withSched hpre (by omega) (by simp [exec, execBgpoll, hb, hpre])
      (by simp [exec, execBgpoll, withSched, hb]) hrun
  | reset =>
    exact reachesAtomicResult_of_meaning State.applyReset (fun _ _ => rfl) hpre (Nat.zero_le _) rfl rfl rfl

/-- A full queue refuses an arrival under either granularity (R171). -/
theorem exec_enq_of_full {s : State} (h : s.queueFull = true) (x : Byte) : exec (.enq x) s = .refused .queueFull := by
  simp [exec, execEnq, h]

end Sys2Proof.Machine

namespace Sys2Proof.Proofs

open Sys2Proof Sys2Proof.Machine Sys2Proof.Safety

/-- Settles O58: the micro-steps of each operation compose to its meaning, which does not see the granularity. -/
theorem uninterruptedRunsReachTheAtomicResult : Obligations.UninterruptedRunsReachTheAtomicResult := by
  intro i s hquiet hpre
  obtain ⟨hs, hb⟩ := State.quiet_iff.1 hquiet
  refine ⟨reachesAtomicResult_of_quiet hs hb hpre, ?_⟩
  rintro ⟨x, rfl⟩ hfull
  exact ⟨exec_enq_of_full hfull x, exec_enq_of_full (s := withSched .atomic s) hfull x⟩

end Sys2Proof.Proofs

/-! Proofs about the encoding (R82 to R89) and the dispatch of the decoded operations (R81, R90, R93). -/

namespace Sys2Proof

/-! ## The decoder inverts the encoder (R83) -/

/-- A word is four given bytes exactly when its fields are those bytes (R82). -/
theorem eq_wordOfBytes_iff {w : StimWord} {a b c d : Byte} :
    w = wordOfBytes a b c d ↔ wordOp w = a ∧ wordArgHi w = b ∧ wordArgMid w = c ∧ wordArgLo w = d := by
  rw [word_eq_iff, wordOp_wordOfBytes, wordArgHi_wordOfBytes, wordArgMid_wordOfBytes, wordArgLo_wordOfBytes]

theorem decodeWord_encodeWord (i : Instr) : decodeWord (encodeWord i) = .ok i := by
  cases i <;> simp [encodeWord, decodeWord, needZeroArg, wordOp_wordOfBytes, wordArgHi_wordOfBytes,
    wordArgMid_wordOfBytes, wordArgLo_wordOfBytes]

theorem encodeWord_injective : Function.Injective encodeWord := by
  intro i j h
  have hd : Except.ok (ε := DecodeError) i = .ok j := by rw [← decodeWord_encodeWord i, h, decodeWord_encodeWord]
  exact Except.ok.inj hd

/-- An operation without an operand is accepted from the one word of its opcode (R83). -/
theorem eq_wordOfBytes_of_needZeroArg {w : StimWord} {op : Byte} {i j : Instr} (hop : wordOp w = op)
    (h : needZeroArg w j = .ok i) : j = i ∧ w = wordOfBytes op 0 0 0 := by
  unfold needZeroArg at h
  split at h
  · next harg => exact ⟨Except.ok.inj h, eq_wordOfBytes_iff.2 ⟨hop, harg⟩⟩
  · cases h

/-- Each branch of the operation map fixes the bytes of the word it accepts. -/
theorem eq_encodeWord_of_decodeWord {w : StimWord} {i : Instr} (h : decodeWord w = .ok i) : w = encodeWord i := by
  unfold decodeWord at h
  split at h
  · next hop => obtain ⟨rfl, hw⟩ := eq_wordOfBytes_of_needZeroArg hop h; exact hw
  split at h
  · next hop => obtain ⟨rfl, hw⟩ := eq_wordOfBytes_of_needZeroArg hop h; exact hw
  split at h
  · next hop => obtain rfl := Except.ok.inj h; exact eq_wordOfBytes_iff.2 ⟨hop, rfl, rfl, rfl⟩
  split at h
  · next hop =>
    split at h
    · next harg =>
      obtain ⟨hhi, hmid⟩ := harg
      obtain rfl := Except.ok.inj h
      exact eq_wordOfBytes_iff.2 ⟨hop, hhi, hmid, rfl⟩
    · cases h
  split at h
  · next hop => obtain ⟨rfl, hw⟩ := eq_wordOfBytes_of_needZeroArg hop h; exact hw
  split at h
  · next hop => obtain ⟨rfl, hw⟩ := eq_wordOfBytes_of_needZeroArg hop h; exact hw
  · cases h

theorem decodeWord_ok_iff {w : StimWord} {i : Instr} : decodeWord w = .ok i ↔ w = encodeWord i :=
  ⟨eq_encodeWord_of_decodeWord, fun h => h ▸ decodeWord_encodeWord i⟩

theorem decodeWord_error_iff {w : StimWord} : (∃ e, decodeWord w = .error e) ↔ ∀ i, w ≠ encodeWord i := by
  simp only [ne_eq, ← decodeWord_ok_iff]
  cases decodeWord w <;> simp

/-! ## The decoder on a byte stream (R82, R87) -/

theorem bytesOfWord_wordOfBytes (a b c d : Byte) : bytesOfWord (wordOfBytes a b c d) = [a, b, c, d] := by
  rw [bytesOfWord, wordOp_wordOfBytes, wordArgHi_wordOfBytes, wordArgMid_wordOfBytes, wordArgLo_wordOfBytes]

/-- The decoder reads the next word of the stream. -/
theorem decode_bytesOfWord_append (w : StimWord) (rest : List Byte) :
    decode (bytesOfWord w ++ rest) = (decodeWord w).map (·, rest) := by
  simp only [bytesOfWord, List.cons_append, List.nil_append, decode, wordOfBytes_fields]
  cases decodeWord w <;> rfl

/-- Bytes that decode to an operation begin with a word that does. -/
theorem exists_word_of_decode {bs rest : List Byte} {i : Instr} (h : decode bs = .ok (i, rest)) :
    ∃ w, bs = bytesOfWord w ++ rest ∧ decodeWord w = .ok i := by
  match bs with
  | b3 :: b2 :: b1 :: b0 :: tail =>
    have hbs : b3 :: b2 :: b1 :: b0 :: tail = bytesOfWord (wordOfBytes b3 b2 b1 b0) ++ tail := by
      rw [bytesOfWord_wordOfBytes]; rfl
    rw [hbs, decode_bytesOfWord_append] at h
    refine ⟨wordOfBytes b3 b2 b1 b0, ?_⟩
    cases hw : decodeWord (wordOfBytes b3 b2 b1 b0) with
    | error e => rw [hw] at h; cases h
    | ok j => rw [hw] at h; cases h; exact ⟨hbs, rfl⟩
  | [] | [_] | [_, _] | [_, _, _] => cases h

theorem decodeWord_of_decodeTableWord {nbits w : Nat} {i : Instr} (h : decodeTableWord nbits w = some i) :
    decodeWord (tableWord nbits w) = .ok i := by
  have hd := decode_bytesOfWord_append (tableWord nbits w) []
  rw [List.append_nil] at hd
  rw [decodeTableWord, hd] at h
  cases hw : decodeWord (tableWord nbits w) with
  | error e => rw [hw] at h; cases h
  | ok j => rw [hw] at h; cases h; rfl

/-! ## The rows of the operation map (R83) -/

/-- Every operation has a row, and the words of its row are its own by `RowMatch`. -/
theorem rowMatch (i : Instr) : Laws.RowMatch.Statement i := by
  cases i with
  | ftick => exact Laws.RowMatch.ftick
  | stick => exact Laws.RowMatch.stick
  | cmd r g b => exact Laws.RowMatch.cmd r g b
  | enq x => exact Laws.RowMatch.enq x
  | bgpoll => exact Laws.RowMatch.bgpoll
  | reset => exact Laws.RowMatch.reset

theorem exists_row_of_instr (i : Instr) : ∃ row ∈ opTable, row.mnemonic = i.mnemonic := by
  cases i <;> simp [opTable, Instr.mnemonic]

theorem row_eq_of_mnemonic_eq : ∀ row ∈ opTable, ∀ row' ∈ opTable, row.mnemonic = row'.mnemonic → row = row' := by
  decide

/-- The bytes under a row's mask are fixed by the row, and those outside it are the operands of the operation that the word
encodes. -/
theorem exists_encodeWord_of_spells {row : OpRow} (hrow : row ∈ opTable) {w : StimWord} (h : row.spells w = true) :
    ∃ i, w = encodeWord i := by
  have hmask (x : Byte) : x &&& 255#8 = x := BitVec.and_allOnes
  rw [OpRow.spells_iff] at h
  simp only [opTable, List.mem_cons, List.not_mem_nil, or_false] at hrow
  rcases hrow with rfl | rfl | rfl | rfl | rfl | rfl <;>
    simp only [wordOp, wordArgHi, wordArgMid, wordArgLo, BitVec.ofNat_eq_ofNat, BitVec.reduceExtractLsb', hmask,
      BitVec.and_zero, and_true] at h
  · exact ⟨.ftick, eq_wordOfBytes_iff.2 h⟩
  · exact ⟨.stick, eq_wordOfBytes_iff.2 h⟩
  · exact ⟨.cmd (wordArgHi w) (wordArgMid w) (wordArgLo w), eq_wordOfBytes_iff.2 ⟨h, rfl, rfl, rfl⟩⟩
  · obtain ⟨hop, hhi, hmid⟩ := h
    exact ⟨.enq (wordArgLo w), eq_wordOfBytes_iff.2 ⟨hop, hhi, hmid, rfl⟩⟩
  · exact ⟨.bgpoll, eq_wordOfBytes_iff.2 h⟩
  · exact ⟨.reset, eq_wordOfBytes_iff.2 h⟩

/-- The words a row spells are the encodings of the operations with its mnemonic (R83). -/
theorem spells_iff_encodeWord {row : OpRow} (hrow : row ∈ opTable) {w : StimWord} :
    row.spells w = true ↔ ∃ i, w = encodeWord i ∧ row.mnemonic = i.mnemonic := by
  constructor
  · intro h
    obtain ⟨i, rfl⟩ := exists_encodeWord_of_spells hrow h
    exact ⟨i, rfl, (rowMatch i row hrow).1 h⟩
  · rintro ⟨i, rfl, hm⟩
    exact (rowMatch i row hrow).2 hm

/-- A word that no row spells encodes no operation, and the other way round (R85). -/
theorem no_row_spells_iff {w : StimWord} : (∀ row ∈ opTable, row.spells w = false) ↔ ∀ i, w ≠ encodeWord i := by
  constructor
  · rintro h i rfl
    obtain ⟨row, hrow, hm⟩ := exists_row_of_instr i
    exact Bool.eq_false_iff.1 (h row hrow) ((rowMatch i row hrow).2 hm)
  · intro h row hrow
    refine Bool.eq_false_iff.2 fun hs => ?_
    obtain ⟨i, hi⟩ := exists_encodeWord_of_spells hrow hs
    exact h i hi

end Sys2Proof

namespace Sys2Proof.Proofs

open Sys2Proof Sys2Proof.Machine Sys2Proof.Safety

/-- Settles O2: the bytes of an operation are those of its word, and each word is read back by the branch of its opcode. -/
theorem decodeOfEncodeIsTheOperation : Obligations.DecodeOfEncodeIsTheOperation := by
  intro i rest
  rw [encode, decode_bytesOfWord_append, decodeWord_encodeWord]
  rfl

/-- Settles O3: the bytes begin with a word, and the one word that decodes to an operation is its encoding. -/
theorem decodedBytesAreTheEncoding : Obligations.DecodedBytesAreTheEncoding := by
  intro bs i rest h
  obtain ⟨w, rfl, hw⟩ := exists_word_of_decode h
  rw [encode, ← decodeWord_ok_iff.1 hw]

/-- Settles O4: decoder and rows accept the same words, the encodings of the operations. -/
theorem wordDecodesByItsRow : Obligations.WordDecodesByItsRow := by
  refine fun w => ⟨fun i h => ?_, decodeWord_error_iff.trans no_row_spells_iff.symm⟩
  obtain ⟨row, hrow, hm⟩ := exists_row_of_instr i
  exact ⟨row, hrow, (spells_iff_encodeWord hrow).2 ⟨i, decodeWord_ok_iff.1 h, hm⟩, hm⟩

/-- Settles O5: a word encodes one operation only, whose mnemonic names one row only. -/
theorem rowsAreDisjoint : Obligations.RowsAreDisjoint := by
  intro w row hrow row' hrow' h h'
  obtain ⟨i, rfl, hi⟩ := (spells_iff_encodeWord hrow).1 h
  obtain ⟨j, hij, hj⟩ := (spells_iff_encodeWord hrow').1 h'
  obtain rfl := encodeWord_injective hij
  exact row_eq_of_mnemonic_eq row hrow row' hrow' (hi.trans hj.symm)

end Sys2Proof.Proofs

namespace Sys2Proof

/-- A word as the number the operation map writes it as (R88). -/
theorem wordOfBytes_toNat (a b c d : Byte) :
    (wordOfBytes a b c d).toNat = a.toNat * 16777216 + b.toNat * 65536 + c.toNat * 256 + d.toNat := by
  rw [wordOfBytes, BitVec.toNat_append, BitVec.toNat_append, BitVec.toNat_append,
    ← Nat.shiftLeft_add_eq_or_of_lt d.isLt, ← Nat.shiftLeft_add_eq_or_of_lt c.isLt,
    ← Nat.shiftLeft_add_eq_or_of_lt b.isLt]
  omega

end Sys2Proof

namespace Sys2Proof.Machine

open Sys2Proof

/-! ## The trace assembly (R88, R89) -/

theorem operandOk_iff {n : Nat} : operandOk n = true ↔ n ≤ 255 := by simp [operandOk]

theorem operand_toNat {n : Nat} (h : n ≤ 255) : (BitVec.ofNat 8 n).toNat = n := by
  rw [BitVec.toNat_ofNat]
  omega

theorem Stmt.words_of_wf {st : Stmt} (h : st.wf = true) :
    st.words = some (st.expansion.map fun i => (encodeWord i).toNat) := by
  simp [Stmt.words, Stmt.expand, h]

theorem Stmt.words_of_not_wf {st : Stmt} (h : ¬ st.wf = true) : st.words = none := by
  simp [Stmt.words, Stmt.expand, h]

theorem encodeWord_cmd_toNat {r g b : Nat} (hr : r ≤ 255) (hg : g ≤ 255) (hb : b ≤ 255) :
    (encodeWord (.cmd (BitVec.ofNat 8 r) (BitVec.ofNat 8 g) (BitVec.ofNat 8 b))).toNat =
      0x03000000 + r * 65536 + g * 256 + b := by
  rw [encodeWord, wordOfBytes_toNat, operand_toNat hr, operand_toNat hg, operand_toNat hb]
  rfl

theorem encodeWord_enq_toNat {x : Nat} (hx : x ≤ 255) : (encodeWord (.enq (BitVec.ofNat 8 x))).toNat = 0x04000000 + x := by
  rw [encodeWord, wordOfBytes_toNat, operand_toNat hx]
  rfl

theorem Stmt.words_ftick {n : Nat} (h : 1 ≤ n) : (Stmt.ftick n).words = some (List.replicate n 0x01000000) := by
  rw [words_of_wf (st := .ftick n) (decide_eq_true h), expansion, List.map_replicate]
  rfl

theorem Stmt.words_stick {n : Nat} (h : 1 ≤ n) : (Stmt.stick n).words = some (List.replicate n 0x02000000) := by
  rw [words_of_wf (st := .stick n) (decide_eq_true h), expansion, List.map_replicate]
  rfl

theorem Stmt.words_cycle : Stmt.cycle.words = some (List.replicate 256 0x01000000) := by
  rw [words_of_wf rfl, expansion, List.map_replicate]
  rfl

theorem frameOps_words :
    frameOps.map (fun i => (encodeWord i).toNat) = List.replicate 256 0x01000000 ++ [0x02000000] := by
  rw [frameOps, List.map_append, List.map_replicate]
  rfl

theorem Stmt.words_frame {n : Nat} (h : 1 ≤ n) :
    (Stmt.frame n).words = some (List.replicate n (List.replicate 256 0x01000000 ++ [0x02000000])).flatten := by
  rw [words_of_wf (st := .frame n) (decide_eq_true h), expansion, List.map_flatten, List.map_replicate, frameOps_words]

theorem Stmt.wf_cmd_iff {r g b : Nat} : (Stmt.cmd r g b).wf = true ↔ r ≤ 255 ∧ g ≤ 255 ∧ b ≤ 255 := by
  simp [wf, operandOk_iff, and_assoc]

theorem Stmt.wf_msg_iff {r g b : Nat} : (Stmt.msg r g b).wf = true ↔ r ≤ 255 ∧ g ≤ 255 ∧ b ≤ 255 := wf_cmd_iff

theorem Stmt.words_cmd {r g b : Nat} (hr : r ≤ 255) (hg : g ≤ 255) (hb : b ≤ 255) :
    (Stmt.cmd r g b).words = some [0x03000000 + r * 65536 + g * 256 + b] := by
  rw [words_of_wf (wf_cmd_iff.2 ⟨hr, hg, hb⟩), expansion, List.map_singleton, encodeWord_cmd_toNat hr hg hb]

theorem Stmt.words_msg {r g b : Nat} (hr : r ≤ 255) (hg : g ≤ 255) (hb : b ≤ 255) :
    (Stmt.msg r g b).words = some [0x04000000 + r, 0x04000000 + g, 0x04000000 + b] := by
  rw [words_of_wf (wf_msg_iff.2 ⟨hr, hg, hb⟩), expansion]
  simp only [List.map_cons, List.map_nil, encodeWord_enq_toNat hr, encodeWord_enq_toNat hg, encodeWord_enq_toNat hb]

theorem Stmt.words_enq {x : Nat} (hx : x ≤ 255) : (Stmt.enq x).words = some [0x04000000 + x] := by
  rw [words_of_wf (st := .enq x) (operandOk_iff.2 hx), expansion, List.map_singleton, encodeWord_enq_toNat hx]

/-! ## The step's three answers (R81, R85, R90) -/

theorem step_of_decode {s : State} {i : Instr} {rest : List Byte} (he : s.takesEvent = true)
    (hd : decode s.trace = .ok (i, rest)) : step s = exec i (s.consume rest) := by
  simp only [step, he, if_true, hd]

theorem step_of_decode_error {s : State} {e : DecodeError} (he : s.takesEvent = true)
    (hd : decode s.trace = .error e) : step s = .refused (.invalidWord s.pos e) := by
  simp only [step, he, if_true, hd]

theorem step_of_no_event {s : State} (he : s.takesEvent = false) : step s = .next s.proceed := by
  simp [step, he]

theorem State.takesEvent_iff {s : State} : s.takesEvent = true ↔ s.trace ≠ [] ∧ s.eventDue = true := by
  simp [State.takesEvent]

/-- Placing a word touches the trace and its arrivals only (log 6). -/
theorem State.withFetchWord_eq (s : State) (nbits w : Nat) :
    s.withFetchWord nbits w = { s with trace := placeWord nbits w s.trace, gaps := s.dueGaps } := rfl

/-- A placed word arrives now: by itself, or because its arrival is set so (log 6). -/
theorem State.withFetchWord_takesEvent (s : State) (nbits w : Nat) : (s.withFetchWord nbits w).takesEvent = true := by
  refine State.takesEvent_iff.2 ⟨List.cons_ne_nil _ _, ?_⟩
  by_cases hdue : s.eventDue = true
  · have hgaps : s.dueGaps = s.gaps := if_pos hdue
    rw [State.withFetchWord_eq, hgaps]
    exact hdue
  · have hgaps : s.dueGaps = 0 :: s.gaps.tail := if_neg hdue
    rw [State.withFetchWord_eq, hgaps]
    simp [State.eventDue]

theorem State.withFetchWord_decode (s : State) {nbits w : Nat} {i : Instr} (h : decodeTableWord nbits w = some i) :
    decode (s.withFetchWord nbits w).trace = .ok (i, s.trace.drop 4) := by
  have hd : decode (placeWord nbits w s.trace) = .ok (i, s.trace.drop 4) := by
    rw [placeWord, decode_bytesOfWord_append, decodeWord_of_decodeTableWord h]
    rfl
  exact hd

/-- The event a placed word becomes acts on the state whose own next word it replaced. -/
theorem State.withFetchWord_consume (s : State) (nbits w : Nat) (rest : List Byte) : (s.withFetchWord nbits w).consume rest =
    { s with trace := rest, pos := s.pos + 1, gaps := (s.withFetchWord nbits w).gaps.tail } := by
  rw [State.consume_eq, State.withFetchWord_eq]

/-! ## The outputs at the interface (R81, R135) -/

theorem State.outPort_getLsbD (s : State) (ch : Channel) :
    s.outPort.getLsbD ch.index = decide (s.out.get ch = .on) := by
  have hbits : ∀ r g b : Bool, let port := BitVec.ofBool b ++ BitVec.ofBool g ++ BitVec.ofBool r
    port.getLsbD 0 = r ∧ port.getLsbD 1 = g ∧ port.getLsbD 2 = b := by decide
  obtain ⟨hr, hg, hb⟩ := hbits (s.out.r = .on) (s.out.g = .on) (s.out.b = .on)
  cases ch with
  | r => exact hr
  | g => exact hg
  | b => exact hb

end Sys2Proof.Machine

namespace Sys2Proof.Proofs

open Sys2Proof Sys2Proof.Machine Sys2Proof.Safety

/-- Settles O1, by evaluating the decoder on the listed words. -/
theorem listedWordsDecodeAsListed : Obligations.ListedWordsDecodeAsListed := by
  refine ⟨?_, ?_, ?_, ?_, ?_, ?_, ?_, ?_, ?_, ?_, ?_, ?_, ?_, ?_, ?_, ?_, ?_, ?_⟩ <;> decide

/-- Settles O6: a well-formed statement gives the words of its expansion, any other none. -/
theorem assemblyGivesTheListedWords : Obligations.AssemblyGivesTheListedWords := by
  refine ⟨fun n hn => ⟨Stmt.words_ftick hn, Stmt.words_stick hn, Stmt.words_frame hn⟩,
    fun r g b hr hg hb => ⟨Stmt.words_cmd hr hg hb, Stmt.words_msg hr hg hb⟩, fun x hx => Stmt.words_enq hx,
    rfl, rfl, Stmt.words_cycle, fun r g b h => ?_, fun x hx => ?_, rfl, rfl, rfl⟩
  · have hout : ¬ (r ≤ 255 ∧ g ≤ 255 ∧ b ≤ 255) := by omega
    exact ⟨Stmt.words_of_not_wf (hout ∘ Stmt.wf_cmd_iff.1), Stmt.words_of_not_wf (hout ∘ Stmt.wf_msg_iff.1)⟩
  · exact Stmt.words_of_not_wf fun hwf => absurd (operandOk_iff.1 hwf) (by omega)

/-- Settles O7: taking the event moves the trace past the word. -/
theorem stepRunsTheDecodedOperation : Obligations.StepRunsTheDecodedOperation :=
  fun _ _ _ => step_of_decode

/-- Settles O8: the placed word arrives now and decodes by its row. -/
theorem placedWordRunsNext : Obligations.PlacedWordRunsNext := by
  intro s nbits w i h
  rw [step_of_decode (s.withFetchWord_takesEvent nbits w) (s.withFetchWord_decode h), s.withFetchWord_consume]

/-- Settles O9, by the two cases of a step without an event. -/
theorem stepWithoutAnEvent : Obligations.StepWithoutAnEvent := by
  intro s he
  rw [step_of_no_event he]
  rcases s.proceed_cases with ⟨hb, hp⟩ | ⟨hb, hp⟩ <;> rw [hb, hp]
  · exact ⟨fun _ => rfl, fun h => nomatch h⟩
  · exact ⟨(fun h => nomatch h), fun _ => rfl⟩

/-- Settles O10: a word that no row spells encodes no operation, and the decoder's error is refused where it
stands. -/
theorem reservedWordRefusedAtItsPosition : Obligations.ReservedWordRefusedAtItsPosition := by
  intro s b3 b2 b1 b0 rest hdue htrace hrows
  obtain ⟨e, hword⟩ := decodeWord_error_iff.2 (no_row_spells_iff.1 hrows)
  have hd : decode s.trace = .error e := by simp only [htrace, decode, hword]
  have he : s.takesEvent = true := State.takesEvent_iff.2 ⟨htrace ▸ List.cons_ne_nil _ _, hdue⟩
  exact ⟨e, step_of_decode_error he hd⟩

/-- Settles O11: every other answer of an operation is an overrun or a full queue. -/
theorem operationsCompleteWhenNothingIsInProgress : Obligations.OperationsCompleteWhenNothingIsInProgress := by
  intro i s hquiet hroom
  obtain ⟨hslow, hbg⟩ := State.quiet_iff.1 hquiet
  cases h : exec i s with
  | next t => exact ⟨t, rfl⟩
  | fault f => cases f
  | refused r =>
    exfalso
    rcases exec_refused_cases h with ⟨-, hbusy, -⟩ | ⟨-, hbusy, -⟩ | ⟨-, hbusy, -⟩ | ⟨hx, hfull, -⟩
    · simp [hslow] at hbusy
    · simp [hbg] at hbusy
    · simp [hbg] at hbusy
    · simp [hroom hx] at hfull

/-- Settles O23: the port's bits are the outputs, and off is the level that is not the channel's `ON_LEVEL`. -/
theorem outPortShowsTheOutputs : Obligations.OutPortShowsTheOutputs := by
  intro s ch
  refine ⟨by rw [State.outPort_getLsbD, decide_eq_true_iff], ?_⟩
  cases h : s.out.get ch <;> simp [State.lineHigh, h]

end Sys2Proof.Proofs

namespace Sys2Proof.Machine

open Sys2Proof

/-- No step writes the configuration (R10, R31), with it the gamma table (R111). -/
theorem step_cfg {s t : State} (h : step s = .next t) : t.cfg = s.cfg :=
  (step_keeps (C := (· = s.cfg)) (P := fun _ => True) (fun _ _ _ _ h => h) (fun _ _ _ _ h _ => h) (fun _ _ h => h)
    ⟨rfl, trivial⟩ h).1

end Sys2Proof.Machine

namespace Sys2Proof.Proofs

open Sys2Proof Sys2Proof.Machine Sys2Proof.Safety

/-- Settles O50: the gamma table is part of the configuration, which no step writes. -/
theorem stepsLeaveTheGammaTable : Obligations.StepsLeaveTheGammaTable := by
  intro s t h
  have hcfg : t.cfg = s.cfg := step_cfg h
  exact ⟨hcfg, State.memReadGamma_congr hcfg⟩

end Sys2Proof.Proofs

/-! Proofs about the Duty-Cycle Generator: one fast tick and the cycle it makes (R120 to R130). -/

namespace Sys2Proof.Machine

open Sys2Proof Sys2Proof.Safety

/-! ## The run of ticks inside one cycle (R121, R124) -/

theorem execAll_cons_of_next {i : Instr} {s t : State} (h : exec i s = .next t) (is : List Instr) :
    execAll (i :: is) s = execAll is t := by
  simp only [execAll, h]

/-- Fast ticks never stop, so a run of them is the tick iterated. -/
theorem execAll_replicate_ftick (n : Nat) (s : State) :
    execAll (List.replicate n .ftick) s = .next (fastTick^[n] s) := by
  induction n generalizing s with
  | zero => rfl
  | succ n ih => rw [List.replicate_succ, execAll_cons_of_next (exec_ftick_iff.2 rfl), ih, Function.iterate_succ_apply]

theorem nextCount_toNat_of_lt {c : Byte} (h : c.toNat < 255) : (nextCount c).toNat = c.toNat + 1 := by
  rw [nextCount_toNat, Nat.mod_eq_of_lt (by omega)]

theorem nextCount_ne_zero_of_lt {c : Byte} (h : c.toNat < 255) : nextCount c ≠ 0#8 := by
  intro h0
  have hcnt := nextCount_toNat_of_lt h
  rw [h0] at hcnt
  exact absurd hcnt.symm (Nat.succ_ne_zero _)

/-- Ticks that do not reach the end of the cycle count, and keep Active and the flag (R121, R122). -/
theorem iterate_fastTick_inside {s : State} {k : Nat} (h : s.cnt.toNat + k ≤ 255) :
    (fastTick^[k] s).cnt.toNat = s.cnt.toNat + k ∧ (fastTick^[k] s).act = s.act ∧ (fastTick^[k] s).upd = s.upd := by
  induction k with
  | zero => exact ⟨rfl, rfl, rfl⟩
  | succ k ih =>
    obtain ⟨hcnt, hact, hupd⟩ := ih (by omega)
    have hlt : (fastTick^[k] s).cnt.toNat < 255 := by omega
    have hb := nextCount_ne_zero_of_lt hlt
    rw [Function.iterate_succ_apply']
    refine ⟨?_, ?_, ?_⟩
    · rw [fastTick_cnt, nextCount_toNat_of_lt hlt, hcnt, Nat.add_assoc]
    · rw [fastTick_act, if_neg hb, hact]
    · rw [fastTick_upd, if_neg hb, hupd]

end Sys2Proof.Machine

namespace Sys2Proof.Proofs

open Sys2Proof Sys2Proof.Machine Sys2Proof.Safety

/-- Settles O18: the first tick is the boundary, which takes the pending values and establishes the output law; the `k` ticks
after it count to `k`, keep Active and keep the law. -/
theorem oneCycleIsOnBelowTheDutyValue : Obligations.OneCycleIsOnBelowTheDutyValue := by
  intro s k hs hk
  have hb : nextCount s.cnt = 0#8 := by rw [hs]; rfl
  have hcnt0 : (fastTick s).cnt.toNat = 0 := by rw [fastTick_cnt, hb]; rfl
  have hact0 : (fastTick s).act = s.pend := by rw [fastTick_act, if_pos hb]
  obtain ⟨hcnt, hact, -⟩ := iterate_fastTick_inside (s := fastTick s) (k := k) (by omega)
  rw [hcnt0, Nat.zero_add] at hcnt
  rw [hact0] at hact
  have hlaw : OutputLaw (fastTick^[k] (fastTick s)) :=
    Function.Iterate.rec OutputLaw (fastTick_outputLaw_of_boundary hb) (fun _ => fastTick_keeps_outputLaw) k
  refine ⟨fastTick^[k] (fastTick s), execAll_replicate_ftick (k + 1) s, hcnt, hact, fun ch => ?_⟩
  rw [hlaw ch, hcnt, hact]

/-- Settles O14: the tick is a boundary or not by the incremented count. -/
theorem boundaryTransfersPendingAndRaisesTheFlag : Obligations.BoundaryTransfersPendingAndRaisesTheFlag := by
  intro s
  obtain ⟨-, -, hpend, -⟩ := fastTick_frame s
  refine ⟨fastTick s, exec_ftick_iff.2 rfl, hpend, fun hb => ?_, fun hb => ?_⟩ <;> rw [fastTick_cnt] at hb
  · refine ⟨(fastTick_act s).trans (if_pos hb), (fastTick_upd s).trans (if_pos hb), fun ch hne => ?_⟩
    exact (fastTick_out s ch).trans ((if_neg (hb ▸ hne)).trans (if_pos hb))
  · exact ⟨(fastTick_act s).trans (if_neg hb), (fastTick_upd s).trans (if_neg hb)⟩

/-- Settles O15: the compare is the last action of the tick, with the count and the active value it leaves. -/
theorem fastTickComparesEveryChannel : Obligations.FastTickComparesEveryChannel := by
  intro s
  refine ⟨fastTick s, exec_ftick_iff.2 rfl, fun ch => ⟨fun hmatch => ?_, fun hmatch => ?_⟩⟩ <;> rw [fastTick_cnt] at hmatch
  · rw [fastTick_out, if_pos hmatch]
  · rw [fastTick_out, if_neg hmatch, fastTick_cnt]
    rfl

/-- Settles O16: the ROM reads by the configuration, which the tick's frame keeps. -/
theorem fastTickFrame : Obligations.FastTickFrame := by
  intro s t h
  obtain rfl := exec_ftick_iff.1 h
  obtain ⟨hti, herr, hpend, hq, hidle, hlast, hslow, hbg, hcfg, htrace, hpos, hgaps⟩ := fastTick_frame s
  exact ⟨hti, herr, hpend, ⟨hq.symm, hidle.symm, hlast.symm⟩, ⟨hslow.symm, hbg.symm⟩,
    ⟨hcfg.symm, htrace.symm, hpos.symm, hgaps.symm⟩, fun v => (State.memReadGamma_congr hcfg v).symm⟩

/-- Settles O17: each register after the tick is a function of the generator's registers before it. -/
theorem generatorIgnoresTargetsAndErrors : Obligations.GeneratorIgnoresTargetsAndErrors := by
  intro s s' t t' hsame h h'
  obtain ⟨hcnt, hpend, hact, hout⟩ := hsame
  obtain rfl := exec_ftick_iff.1 h
  obtain rfl := exec_ftick_iff.1 h'
  obtain ⟨-, -, hp, -⟩ := fastTick_frame s
  obtain ⟨-, -, hp', -⟩ := fastTick_frame s'
  have hactAfter : (fastTick s).act = (fastTick s').act := by rw [fastTick_act, fastTick_act, hcnt, hpend, hact]
  refine ⟨?_, ?_, hactAfter, PerCh.ext_get fun ch => ?_⟩
  · rw [fastTick_cnt, fastTick_cnt, hcnt]
  · rw [hp, hp', hpend]
  · rw [fastTick_out, fastTick_out, hactAfter, hcnt, hout]

end Sys2Proof.Proofs

/-! Proofs about the Dither Quantizer: one update of an accumulator and its bound, the slow tick per channel, and streams of
runs on one channel (R140 to R159). -/

namespace Sys2Proof.Safety

open Sys2Proof Sys2Proof.Machine

/-! ## One update of an accumulator (R141 to R146) -/

theorem toNat_eq_floorValue_add_remValue (t : Intensity) : t.toNat = 16 * floorValue t + remValue t := by
  rw [floorValue_eq, remValue, Nat.div_add_mod]

theorem remValue_lt (t : Intensity) : remValue t < 16 := Nat.mod_lt _ (by decide)

theorem floorValue_lt (t : Intensity) : floorValue t < 256 := by
  have ht := t.isLt
  rw [floorValue_eq]
  omega

theorem quantOut_of_nonneg {e : Int} (h : 0 ≤ e) (t : Intensity) : (quantOut e t).toNat = floorValue t + 1 := by
  rw [quantOut_toNat, if_pos h, floorValue_eq]

theorem quantOut_of_neg {e : Int} (h : e < 0) (t : Intensity) : (quantOut e t).toNat = floorValue t := by
  rw [quantOut_toNat, if_neg (Int.not_le.2 h), floorValue_eq]

/-- The error bound lies inside every width of at least 6 bits (R10, R146). -/
theorem signedFits_of_bounded {w : Nat} {e : Int} (hw : 6 ≤ w) (h1 : -16 ≤ e) (h2 : e ≤ 14) : SignedFits w e := by
  have hroom := errWidth_room hw
  exact ⟨by omega, by omega⟩

/-- An accumulator that is not negative pays for the whole next step: it gains `rem` and loses 16 (R144). -/
theorem errOf_of_nonneg {w : Nat} {e : Int} (hw : 6 ≤ w) (hfit : SignedFits w e) (h : 0 ≤ e) (t : Intensity) :
    errOf w e t (quantOut e t) = e + remValue t - 16 := by
  obtain ⟨h1, h2⟩ := hfit
  have ht := toNat_eq_floorValue_add_remValue t
  rw [errOf_eq hw h1 h2, quantOut_of_nonneg h]
  omega

/-- A negative accumulator gains `rem` (R144). -/
theorem errOf_of_neg {w : Nat} {e : Int} (hw : 6 ≤ w) (hfit : SignedFits w e) (h : e < 0) (t : Intensity) :
    errOf w e t (quantOut e t) = e + remValue t := by
  obtain ⟨h1, h2⟩ := hfit
  have ht := toNat_eq_floorValue_add_remValue t
  rw [errOf_eq hw h1 h2, quantOut_of_neg h]
  omega

/-- The update keeps the error bound: `rem` is at most 15, and the sign decides whether 16 is paid (R146). -/
theorem errOf_bounded {w : Nat} {e : Int} (hw : 6 ≤ w) (h1 : -16 ≤ e) (h2 : e ≤ 14) (t : Intensity) :
    -16 ≤ errOf w e t (quantOut e t) ∧ errOf w e t (quantOut e t) ≤ 14 := by
  have hfit := signedFits_of_bounded hw h1 h2
  have hrem := remValue_lt t
  by_cases h : 0 ≤ e
  · rw [errOf_of_nonneg hw hfit h]
    omega
  · rw [errOf_of_neg hw hfit (Int.not_le.1 h)]
    omega

end Sys2Proof.Safety

namespace Sys2Proof.Machine

open Sys2Proof

/-! ## The slow tick, per channel (R140, R149, R153) -/

theorem exec_stick_iff {s t : State} : exec .stick s = .next t ↔
    s.slow = none ∧ (s.cfg.sched = .atomic ∧ t = slowTick s ∨ s.cfg.sched = .preemptive ∧ t = s.setSlow (some .test)) := by
  cases hs : s.slow <;> cases hc : s.cfg.sched <;> simp [exec, execStick, hs, hc, eq_comm]

theorem exec_stick_of_atomic {s : State} (hs : s.slow = none) (hc : s.cfg.sched = .atomic) :
    exec .stick s = .next (slowTick s) :=
  exec_stick_iff.2 ⟨hs, .inl ⟨hc, rfl⟩⟩

theorem exec_stick_of_preemptive {s : State} (hs : s.slow = none) (hc : s.cfg.sched = .preemptive) :
    exec .stick s = .next (s.setSlow (some .test)) :=
  exec_stick_iff.2 ⟨hs, .inr ⟨hc, rfl⟩⟩

/-- With the flag set every channel is quantized, each from its own target and accumulator (R140, R149). -/
theorem slowTick_lane_of_set {s : State} (h : s.upd = true) (ch : Channel) :
    (slowTick s).pend.get ch = pendOf (quantOut (s.err.get ch) (s.ti.get ch)) ∧
    (slowTick s).err.get ch = errOf s.cfg.errW (s.err.get ch) (s.ti.get ch) (quantOut (s.err.get ch) (s.ti.get ch)) := by
  obtain ⟨-, herr, hpend, -⟩ := guardStep_frame (quantizerRun s)
  rw [slowTick_of_set h, herr, hpend]
  exact quantizerRun_lane s ch

/-- With the flag clear the quantizer's registers stay (R153). -/
theorem slowTick_quantizer_of_clear {s : State} (h : s.upd = false) :
    (slowTick s).pend = s.pend ∧ (slowTick s).err = s.err ∧ (slowTick s).upd = s.upd := by
  obtain ⟨-, herr, hpend, -, -, hupd, -⟩ := guardStep_frame s
  rw [slowTick_of_clear h]
  exact ⟨hpend, herr, hupd⟩

/-- Every slow tick leaves the flag clear (R140, R153). -/
theorem slowTick_upd (s : State) : (slowTick s).upd = false := by
  cases h : s.upd with
  | false =>
    obtain ⟨-, -, hupd⟩ := slowTick_quantizer_of_clear h
    rw [hupd, h]
  | true =>
    obtain ⟨-, -, -, -, -, hupd, -⟩ := guardStep_frame (quantizerRun s)
    obtain ⟨hclear, -⟩ := quantizerRun_frame s
    rw [slowTick_of_set h, hupd, hclear]

end Sys2Proof.Machine

namespace Sys2Proof.Safety

open Sys2Proof Sys2Proof.Machine

/-! ## The error bound as an invariant (R146) -/

/-- The error bound speaks of the accumulators and the slow task's position only. -/
theorem ErrBounded.congr {s t : State} (h : ErrBounded s) (he : t.err = s.err) (hs : t.slow = s.slow) : ErrBounded t := by
  simpa only [ErrBounded, he, hs] using h

/-- At a position other than `s3` the error bound asks for the accumulators' range only. -/
theorem errBounded_of_noUpdate {s : State} (herr : ∀ ch, -16 ≤ s.err.get ch ∧ s.err.get ch ≤ 14)
    (hs : ∀ ch x out, s.slow ≠ some (.update ch x out)) : ErrBounded s :=
  ⟨herr, fun ch x out h => absurd h (hs ch x out)⟩

theorem slowTick_keeps_errBounded {s : State} (hw : 6 ≤ s.cfg.errW) (h : ErrBounded s) (hs : s.slow = none) :
    ErrBounded (slowTick s) := by
  obtain ⟨-, -, -, -, hslow, -⟩ := slowTick_frame s
  obtain ⟨herr, -⟩ := h
  refine errBounded_of_noUpdate (fun ch => ?_) (by simp [hslow, hs])
  cases hu : s.upd with
  | true =>
    obtain ⟨-, hlane⟩ := slowTick_lane_of_set hu ch
    obtain ⟨h1, h2⟩ := herr ch
    rw [hlane]
    exact errOf_bounded hw h1 h2 _
  | false =>
    obtain ⟨-, hkept, -⟩ := slowTick_quantizer_of_clear hu
    rw [hkept]
    exact herr ch

theorem exec_keeps_errBounded {i : Instr} {s t : State} (hw : 6 ≤ s.cfg.errW) (h : ErrBounded s)
    (he : exec i s = .next t) : ErrBounded t := by
  rcases exec_next_cases he with
    ⟨-, rfl⟩ | ⟨-, hs, -, rfl⟩ | ⟨-, -, -, rfl⟩ | ⟨r, g, b, -, -, -, rfl⟩ | ⟨r, g, b, -, -, -, rfl⟩ | ⟨x, -, -, rfl⟩ |
    ⟨-, -, -, rfl⟩ | ⟨-, -, -, rfl⟩ | ⟨-, rfl⟩
  · obtain ⟨-, herr, -, -, -, -, hslow, -⟩ := fastTick_frame s
    exact h.congr herr hslow
  · exact slowTick_keeps_errBounded hw h hs
  · exact errBounded_of_noUpdate h.1 (by simp)
  · exact h.congr rfl rfl
  · exact h.congr rfl rfl
  · exact h.congr rfl rfl
  · obtain ⟨herr, -, -, -, -, -, -, hslow, -⟩ := pollOnce_frame s
    exact h.congr herr hslow
  · exact h.congr rfl rfl
  · exact errBounded_of_noUpdate (by simp [State.applyReset_eq]) (by simp [State.applyReset_eq])

theorem slowAfter_ne_update (ch c : Channel) (x : Intensity) (out : QuantOut) : slowAfter ch ≠ .update c x out := by
  cases ch <;> simp [slowAfter, Channel.succ]

/-- `s2` sets out for `s3` with the output its accumulator asks for, and `s3` uses that output (R63, R146). -/
theorem slowMicro_keeps_errBounded {s : State} {p : SlowPos} (hw : 6 ≤ s.cfg.errW) (h : ErrBounded s)
    (hs : s.slow = some p) : ErrBounded (slowMicro p s) := by
  obtain ⟨herr, hout⟩ := h
  cases p with
  | test => exact errBounded_of_noUpdate herr (by simp [slowMicro])
  | clear u => cases u <;> exact errBounded_of_noUpdate herr (by simp [slowMicro])
  | read ch => exact errBounded_of_noUpdate herr (by simp [slowMicro])
  | write ch x =>
    refine ⟨herr, fun c y out hc => ?_⟩
    simp only [slowMicro, State.setSlow_slow, Option.some.injEq, SlowPos.update.injEq] at hc
    obtain ⟨rfl, rfl, rfl⟩ := hc
    rfl
  | update ch x out =>
    refine errBounded_of_noUpdate (fun c => ?_) (by simp [slowMicro, slowAfter_ne_update])
    simp only [slowMicro, updateErr, State.setSlow_err, State.setErr_err, PerCh.get_set]
    split
    · obtain ⟨h1, h2⟩ := herr ch
      rw [hout ch x out hs]
      exact errOf_bounded hw h1 h2 x
    · exact herr c
  | guard =>
    obtain ⟨-, he, -⟩ := guardStep_frame s
    exact errBounded_of_noUpdate (by simpa [slowMicro, he] using herr) (by simp [slowMicro])

theorem microStep_keeps_errBounded {s : State} (hw : 6 ≤ s.cfg.errW) (h : ErrBounded s) : ErrBounded (microStep s) := by
  rcases microStep_cases s with ⟨p, hs, hm⟩ | ⟨p, -, -, hm⟩ | ⟨-, -, hm⟩ <;> rw [hm]
  · exact slowMicro_keeps_errBounded hw h hs
  · obtain ⟨herr, -, -, -, -, -, -, hslow, -⟩ := bgMicro_frame p s
    exact h.congr herr hslow
  · exact h

end Sys2Proof.Safety

namespace Sys2Proof.Proofs

open Sys2Proof Sys2Proof.Machine Sys2Proof.Safety

/-- Settles O30: operations and micro-steps keep the bound, with the suspended `s3` in it. -/
theorem stepsKeepTheErrorBound : Obligations.StepsKeepTheErrorBound := fun _ _ =>
  step_keeps (C := fun c => c.errWOk = true) (fun _ _ _ _ h => h.congr rfl rfl)
    (fun _ _ _ hc => exec_keeps_errBounded ((errWOk_iff _).1 hc))
    (fun _ hc => microStep_keeps_errBounded ((errWOk_iff _).1 hc))

/-- Settles O24: each channel by the sign of its accumulator. -/
theorem slowTickQuantizesEveryChannel : Obligations.SlowTickQuantizesEveryChannel := by
  intro s hs hc hu hw hfit
  obtain ⟨hfits, -⟩ := hfit
  have hw6 := (errWOk_iff _).1 hw
  refine ⟨slowTick s, exec_stick_of_atomic hs hc, slowTick_upd s, fun ch => ?_⟩
  obtain ⟨hpend, herr⟩ := slowTick_lane_of_set hu ch
  obtain ⟨h1, h2⟩ := hfits ch
  rw [hpend, herr, pendOf_toNat, errOf_eq hw6 h1 h2, ← floorValue_eq]
  refine ⟨fun h => ?_, fun h => ?_⟩
  · rw [quantOut_of_nonneg h, floorValue_eq]
    exact ⟨rfl, by push_cast; rfl⟩
  · rw [quantOut_of_neg h, Nat.mod_eq_of_lt (floorValue_lt _), floorValue_eq]
    exact ⟨rfl, by push_cast; rfl⟩

/-- Settles O26: the quantizer half does nothing, and the guard writes no register of the block. -/
theorem slowTickWithTheFlagClearLeavesTheBlock : Obligations.SlowTickWithTheFlagClearLeavesTheBlock := by
  intro s hs hu
  refine ⟨fun hc => ⟨slowTick s, exec_stick_of_atomic hs hc, ?_⟩,
    fun hc => ⟨s.setSlow (some .test), exec_stick_of_preemptive hs hc, ?_⟩⟩
  · rw [slowTick_of_clear hu]
    simp [SameOutside, SameQuantizer, guardStep_frame]
  · have hrun : microRun 3 (s.setSlow (some .test)) = (guardStep s).setSlow none :=
      microRun_trans (microRun_skipToGuard hu) (microRun_guard s)
    rw [hrun]
    simp [SameOutside, SameQuantizer, guardStep_frame]

/-- Settles O27: the whole slow tick by its frame, the preemptive start by what it registers. -/
theorem slowTickFrame : Obligations.SlowTickFrame := by
  intro s t h
  obtain ⟨-, ⟨hc, rfl⟩ | ⟨hc, rfl⟩⟩ := exec_stick_iff.1 h
  · obtain ⟨hti, hact, hcnt, hout, hslow, hbg, hcfg, htrace, hpos, hgaps⟩ := slowTick_frame s
    exact ⟨⟨hti.symm, hact.symm, hcnt.symm, hout.symm⟩, ⟨hcfg.symm, htrace.symm, hpos.symm, hgaps.symm⟩,
      fun v => (State.memReadGamma_congr hcfg v).symm, hbg, fun _ => hslow,
      fun hp => nomatch hc.symm.trans hp⟩
  · exact ⟨⟨rfl, rfl, rfl, rfl⟩, ⟨rfl, rfl, rfl, rfl⟩, fun _ => rfl, rfl, fun ha => (nomatch hc.symm.trans ha),
      fun _ => ⟨rfl, ⟨rfl, rfl, rfl⟩, rfl, rfl, rfl⟩⟩

/-- Settles O29: with the flag set a lane is a function of its own target and accumulator, with the flag clear it stays. -/
theorem quantizerLanesAreIndependent : Obligations.QuantizerLanesAreIndependent := by
  intro s s' t t' ch hc hc' hw hu hti herr h h'
  obtain ⟨hs, -⟩ := exec_stick_iff.1 h
  obtain ⟨hs', -⟩ := exec_stick_iff.1 h'
  obtain rfl : slowTick s = t := by simpa [exec_stick_of_atomic hs hc] using h
  obtain rfl : slowTick s' = t' := by simpa [exec_stick_of_atomic hs' hc'] using h'
  cases hset : s.upd with
  | true =>
    obtain ⟨hp, he⟩ := slowTick_lane_of_set hset ch
    obtain ⟨hp', he'⟩ := slowTick_lane_of_set (hu ▸ hset) ch
    rw [hp, he, hp', he', hw, hti, herr]
    exact ⟨rfl, fun _ => rfl⟩
  | false =>
    obtain ⟨hp, he, -⟩ := slowTick_quantizer_of_clear hset
    obtain ⟨hp', he', -⟩ := slowTick_quantizer_of_clear (hu ▸ hset)
    rw [hp, he, hp', he']
    exact ⟨herr, by simp⟩

end Sys2Proof.Proofs

namespace Sys2Proof.Safety

open Sys2Proof Sys2Proof.Machine

/-! ## Streams of runs on one channel (R147, R148) -/

theorem quantStream_bounded {w : Nat} (hw : 6 ≤ w) (ts : List Intensity) {e : Int} (h1 : -16 ≤ e) (h2 : e ≤ 14) :
    -16 ≤ (quantStream w ts e).2 ∧ (quantStream w ts e).2 ≤ 14 := by
  induction ts generalizing e with
  | nil => exact ⟨h1, h2⟩
  | cons t ts ih =>
    obtain ⟨h1', h2'⟩ := errOf_bounded hw h1 h2 t
    exact ih h1' h2'

/-- The averaging identity: what the targets ask for and the outputs do not give is in the accumulator (R147). -/
theorem quantStream_balance {w : Nat} (hw : 6 ≤ w) (ts : List Intensity) {e : Int} (h1 : -16 ≤ e) (h2 : e ≤ 14) :
    (ts.map fun t : Intensity => (t.toNat : Int)).sum -
      16 * ((quantStream w ts e).1.map fun out : QuantOut => (out.toNat : Int)).sum = (quantStream w ts e).2 - e := by
  induction ts generalizing e with
  | nil => simp [quantStream]
  | cons t ts ih =>
    obtain ⟨h1', h2'⟩ := errOf_bounded hw h1 h2 t
    obtain ⟨hlo, hhi⟩ := signedFits_of_bounded hw h1 h2
    have hrest := ih h1' h2'
    have hstep := errOf_eq hw hlo hhi t
    simp only [quantStream, List.map_cons, List.sum_cons]
    omega

theorem quantStream_length (w : Nat) (ts : List Intensity) (e : Int) : (quantStream w ts e).1.length = ts.length := by
  induction ts generalizing e with
  | nil => rfl
  | cons t ts ih => simp [quantStream, ih]

/-- Every output of a stream is a round decision on one of its targets (R142). -/
theorem exists_quantOut_of_mem_quantStream {w : Nat} {ts : List Intensity} {e : Int} {out : QuantOut}
    (h : out ∈ (quantStream w ts e).1) : ∃ e', ∃ t ∈ ts, out = quantOut e' t := by
  induction ts generalizing e with
  | nil => simp [quantStream] at h
  | cons t ts ih =>
    rcases List.mem_cons.1 h with rfl | h
    · exact ⟨e, t, List.mem_cons_self, rfl⟩
    · obtain ⟨e', u, hu, rfl⟩ := ih h
      exact ⟨e', u, List.mem_cons_of_mem t hu, rfl⟩

/-- A constant target gives two outputs only (R148). -/
theorem toNat_of_mem_quantStream_replicate {w n : Nat} {t : Intensity} {e : Int} {out : QuantOut}
    (h : out ∈ (quantStream w (List.replicate n t) e).1) : out.toNat = floorValue t ∨ out.toNat = floorValue t + 1 := by
  obtain ⟨e', u, hu, rfl⟩ := exists_quantOut_of_mem_quantStream h
  obtain rfl := List.eq_of_mem_replicate hu
  by_cases h0 : 0 ≤ e'
  · exact .inr (quantOut_of_nonneg h0 _)
  · exact .inl (quantOut_of_neg (Int.not_le.1 h0) _)

/-- The sixteen values an accumulator takes in the steady state of a constant target (R148). -/
def Steady (t : Intensity) (e : Int) : Prop := (remValue t : Int) - 16 ≤ e ∧ e ≤ (remValue t : Int) - 1

/-- The steady state lies inside the error bound. -/
theorem Steady.bounded {t : Intensity} {e : Int} (h : Steady t e) : -16 ≤ e ∧ e ≤ 14 := by
  obtain ⟨h1, h2⟩ := h
  have hrem := remValue_lt t
  omega

theorem Steady.errOf_quantOut {w : Nat} {t : Intensity} {e : Int} (hw : 6 ≤ w) (h : Steady t e) :
    Steady t (errOf w e t (quantOut e t)) := by
  obtain ⟨hlo, hhi⟩ := h.bounded
  have hfit := signedFits_of_bounded hw hlo hhi
  obtain ⟨h1, h2⟩ := h
  have hrem := remValue_lt t
  by_cases h0 : 0 ≤ e
  · rw [errOf_of_nonneg hw hfit h0]
    exact ⟨by omega, by omega⟩
  · rw [errOf_of_neg hw hfit (Int.not_le.1 h0)]
    exact ⟨by omega, by omega⟩

theorem Steady.quantStream_replicate {w : Nat} {t : Intensity} {e : Int} (hw : 6 ≤ w) (h : Steady t e) (n : Nat) :
    Steady t (quantStream w (List.replicate n t) e).2 := by
  induction n generalizing e with
  | zero => exact h
  | succ n ih => exact ih (h.errOf_quantOut hw)

/-- The averaging identity of a constant target (R148). -/
theorem Steady.balance {w : Nat} {t : Intensity} {e : Int} (hw : 6 ≤ w) (h : Steady t e) (n : Nat) :
    (n : Int) * t.toNat - 16 * (((quantStream w (List.replicate n t) e).1.map fun out => out.toNat).sum : Nat) =
      (quantStream w (List.replicate n t) e).2 - e := by
  obtain ⟨hlo, hhi⟩ := h.bounded
  have hbalance := quantStream_balance hw (List.replicate n t) hlo hhi
  rw [List.map_replicate, List.sum_replicate, nsmul_eq_mul] at hbalance
  rw [Nat.cast_list_sum, List.map_map]
  exact hbalance

/-- A list of two neighbouring values splits into the two. -/
theorem count_add_count_succ {f : Nat} {l : List Nat} (h : ∀ x ∈ l, x = f ∨ x = f + 1) :
    l.count f + l.count (f + 1) = l.length := by
  induction l with
  | nil => rfl
  | cons x l ih =>
    obtain ⟨hx, hl⟩ := List.forall_mem_cons.1 h
    have hrest := ih hl
    rcases hx with rfl | rfl <;> simp <;> omega

/-- The sum of a list of two neighbouring values: one more for each of the upper ones. -/
theorem sum_eq_mul_length_add_count_succ {f : Nat} {l : List Nat} (h : ∀ x ∈ l, x = f ∨ x = f + 1) :
    l.sum = f * l.length + l.count (f + 1) := by
  induction l with
  | nil => rfl
  | cons x l ih =>
    obtain ⟨hx, hl⟩ := List.forall_mem_cons.1 h
    have hrest := ih hl
    rcases hx with rfl | rfl <;> simp [Nat.mul_succ] <;> omega

/-- What a run stores of the outputs 255 and 256: 255, and 0 for 256 (R143). -/
theorem sum_pendOf_eq {l : List QuantOut} (h : ∀ out ∈ l, out.toNat = 255 ∨ out.toNat = 256) :
    (l.map fun out => (pendOf out).toNat).sum = 255 * (l.map fun out => out.toNat).count 255 := by
  induction l with
  | nil => rfl
  | cons out l ih =>
    obtain ⟨hout, hl⟩ := List.forall_mem_cons.1 h
    have hrest := ih hl
    rw [List.map_cons, List.map_cons, List.sum_cons, List.count_cons, hrest, pendOf_toNat]
    rcases hout with hout | hout <;> rw [hout] <;> simp [Nat.mul_add, Nat.add_comm]

end Sys2Proof.Safety

namespace Sys2Proof.Proofs

open Sys2Proof Sys2Proof.Machine Sys2Proof.Safety

/-- Settles O31: the balance of the stream, between two accumulators within the error bound. -/
theorem outputsAverageToTheTargets : Obligations.OutputsAverageToTheTargets := by
  intro w ts e hw h1 h2
  obtain ⟨h1', h2'⟩ := quantStream_bounded hw ts h1 h2
  exact ⟨quantStream_balance hw ts h1 h2, by omega, by omega⟩

/-- Settles O32: with `rem` = 0 a non-negative accumulator pays 16 once, and a negative one gains nothing. -/
theorem remainderZeroGivesOneTransient : Obligations.RemainderZeroGivesOneTransient := by
  intro w t e hw hrem h0 h14 e'
  have hpay : e' = e - 16 := by
    have h := errOf_of_nonneg hw (signedFits_of_bounded hw (by omega) h14) h0 t
    omega
  have hneg : e' < 0 := by omega
  have hrest : errOf w e' t (quantOut e' t) = e' := by
    have h := errOf_of_neg hw (signedFits_of_bounded hw (by omega) (by omega)) hneg t
    omega
  have hup := quantOut_of_nonneg h0 t
  have hdown := quantOut_of_neg hneg t
  refine ⟨hup, hpay, hdown, hrest, ?_⟩
  rintro rfl
  have hfloor : floorValue (4080 : Intensity) = 255 := rfl
  exact ⟨BitVec.eq_of_toNat_eq (by rw [pendOf_toNat, hup, hfloor]; rfl),
    BitVec.eq_of_toNat_eq (by rw [pendOf_toNat, hdown, hfloor]; rfl)⟩

/-- Settles O33: sixteen runs change the accumulator by a multiple of 16, inside a window of sixteen values, so it returns, and
the outputs sum to the target: `rem` more than sixteen times `floor`. -/
theorem sixteenRunsRoundUpRemTimes : Obligations.SixteenRunsRoundUpRemTimes := by
  intro w t e hw h1 h2 run
  have hsteady : Steady t e := ⟨h1, h2⟩
  obtain ⟨h1', h2'⟩ : Steady t run.2 := hsteady.quantStream_replicate hw 16
  have hbalance : (16 : Nat) * (t.toNat : Int) - 16 * ((run.1.map fun out => out.toNat).sum : Nat) = run.2 - e :=
    hsteady.balance hw 16
  have htwo : ∀ x ∈ run.1.map fun out => out.toNat, x = floorValue t ∨ x = floorValue t + 1 :=
    List.forall_mem_map.2 fun _ => toNat_of_mem_quantStream_replicate
  have hlen : (run.1.map fun out => out.toNat).length = 16 := by simp [run, quantStream_length]
  have hcount := count_add_count_succ htwo
  have hsum := sum_eq_mul_length_add_count_succ htwo
  have ht := toNat_eq_floorValue_add_remValue t
  rw [hlen] at hcount hsum
  exact ⟨by omega, by omega, by omega⟩

/-- Settles O34: 256 is stored as 0, so only the runs that do not round up count. -/
theorem outOfContractTargetsAreDimmer : Obligations.OutOfContractTargetsAreDimmer := by
  intro w t e hw ht h1 h2
  have hfloor : floorValue t = 255 := by
    have hlt := floorValue_lt t
    have hle := floorValue_eq t
    omega
  obtain ⟨-, -, hdown⟩ := sixteenRunsRoundUpRemTimes w t e hw h1 h2
  rw [sum_pendOf_eq fun out h => ?_, ← hfloor, hdown]
  simpa [hfloor] using toNat_of_mem_quantStream_replicate h

end Sys2Proof.Proofs

namespace Sys2Proof.Safety

open Sys2Proof Sys2Proof.Machine

/-! ## The modular form (R159) -/

/-- Two sums are stored as the same value exactly when they differ by a multiple of the width's modulus (R12). -/
theorem narrowErr_eq_narrowErr_iff {w : Nat} {a b : Int} : narrowErr w a = narrowErr w b ↔ (2 : Int) ^ w ∣ a - b := by
  rw [narrowErr, narrowErr, Int.bmod_eq_bmod_iff_bmod_sub_eq_zero, ← Int.dvd_iff_bmod_eq_zero]
  push_cast
  rfl

/-- The update with the untruncated output and the one with the stored Pending agree when the width's modulus divides what the
narrowing dropped: 4096 for each 256 of the output (R143, R159). -/
theorem errOf_eq_modular_iff {w : Nat} {e : Int} {t : Intensity} {out : QuantOut} :
    errOf w e t out = narrowErr w (e + t.toNat - 16 * (pendOf out).toNat) ↔ (2 : Int) ^ w ∣ 4096 * (out.toNat / 256 : Nat) := by
  have hdiff : e + (t.toNat : Int) - (outScaled out : Int) - (e + t.toNat - 16 * (pendOf out).toNat) =
      -(4096 * (out.toNat / 256 : Nat)) := by
    rw [pendOf_toNat, outScaled, Nat.shiftLeft_eq]
    omega
  rw [errOf, narrowErr_eq_narrowErr_iff, hdiff, Int.dvd_neg]

/-- The 8-bit shift and subtraction is the modular form at 8 bits (R159). -/
theorem bitVec_error_update (e : Int) (t : Intensity) (p : Byte) :
    (BitVec.ofInt 8 e + t.setWidth 8 - p <<< 4).toInt = narrowErr 8 (e + t.toNat - 16 * p.toNat) := by
  have ht : t.setWidth 8 = BitVec.ofInt 8 t.toNat := by rw [BitVec.ofInt_natCast, BitVec.ofNat_toNat]
  have hp : p <<< 4 = BitVec.ofInt 8 (16 * p.toNat : Nat) := by
    rw [BitVec.ofInt_natCast, BitVec.shiftLeft_eq_mul_twoPow, BitVec.ofNat_mul, BitVec.ofNat_toNat, BitVec.mul_comm]
    simp [BitVec.twoPow_eq]
  rw [ht, hp, BitVec.sub_eq_add_neg, ← BitVec.ofInt_neg, ← BitVec.ofInt_add, ← BitVec.ofInt_add, BitVec.toInt_ofInt]
  push_cast
  rfl

end Sys2Proof.Safety

namespace Sys2Proof.Proofs

open Sys2Proof Sys2Proof.Machine Sys2Proof.Safety

/-- Settles O35: up to 12 bits the modulus divides 4096, above it does not. -/
theorem narrowAccumulatorGivesTheSameError : Obligations.NarrowAccumulatorGivesTheSameError := by
  intro w e t
  have hnarrow {w : Nat} (hw : w ≤ 12) :
      errOf w e t (quantOut e t) = narrowErr w (e + t.toNat - 16 * (pendOf (quantOut e t)).toNat) :=
    errOf_eq_modular_iff.2 (dvd_mul_of_dvd_left (pow_dvd_pow 2 hw) _)
  refine ⟨hnarrow, fun hw h1 h2 => ?_, ?_, fun hw h256 h => ?_⟩
  · obtain ⟨hlo, hhi⟩ := signedFits_of_bounded hw h1 h2
    exact errOf_eq hw hlo hhi t
  · rw [bitVec_error_update]
    exact hnarrow (by decide)
  · rw [errOf_eq_modular_iff, h256] at h
    have hdvd : (2 : Int) ^ 13 ∣ 4096 := (pow_dvd_pow 2 hw).trans (by simpa using h)
    exact absurd hdvd (by decide)

end Sys2Proof.Proofs

/-! Proofs about the command port: what `CMD` writes and leaves alone (R160 to R163). -/

namespace Sys2Proof.Machine

open Sys2Proof Sys2Proof.Safety

/-! ## The command (R160) -/

theorem exec_cmd_iff {r g b : Byte} {s t : State} : exec (.cmd r g b) s = .next t ↔
    s.bg = none ∧
      (s.cfg.sched = .atomic ∧ t = applyMessage r g b s ∨ s.cfg.sched = .preemptive ∧ t = s.setBg (some (.lookup r g b))) := by
  cases hb : s.bg <;> cases hc : s.cfg.sched <;> simp [exec, execCmd, hb, hc, eq_comm]

theorem exec_cmd_of_atomic {s : State} (hb : s.bg = none) (hc : s.cfg.sched = .atomic) (r g b : Byte) :
    exec (.cmd r g b) s = .next (applyMessage r g b s) :=
  exec_cmd_iff.2 ⟨hb, .inl ⟨hc, rfl⟩⟩

theorem exec_cmd_of_preemptive {s : State} (hb : s.bg = none) (hc : s.cfg.sched = .preemptive) (r g b : Byte) :
    exec (.cmd r g b) s = .next (s.setBg (some (.lookup r g b))) :=
  exec_cmd_iff.2 ⟨hb, .inr ⟨hc, rfl⟩⟩

/-- The last message wins: nothing of an earlier one is left (R163). -/
theorem applyMessage_applyMessage (r g b r' g' b' : Byte) (s : State) :
    applyMessage r g b (applyMessage r' g' b' s) = applyMessage r g b s := rfl

/-- What neither a whole message nor its preemptive start touches (R34, R160). -/
theorem exec_cmd_frame {r g b : Byte} {s t : State} (h : exec (.cmd r g b) s = .next t) :
    SameQuantizer s t ∧ t.act = s.act ∧ t.cnt = s.cnt ∧ t.out = s.out ∧ SameEnv s t ∧ t.slow = s.slow ∧ SameInputs s t := by
  obtain ⟨-, ⟨-, rfl⟩ | ⟨-, rfl⟩⟩ := exec_cmd_iff.1 h
  · simp [applyMessage, SameQuantizer, SameEnv, SameInputs]
  · simp [SameQuantizer, SameEnv, SameInputs]

end Sys2Proof.Machine

namespace Sys2Proof.Proofs

open Sys2Proof Sys2Proof.Machine Sys2Proof.Safety

/-- Settles O36: as one step and as four micro-steps a command is the whole message applied. -/
theorem commandWritesTheThreeTargets : Obligations.CommandWritesTheThreeTargets := by
  intro r g b s hb
  refine ⟨fun hc => ⟨applyMessage r g b s, exec_cmd_of_atomic hb hc r g b, rfl, rfl, rfl⟩,
    fun hc hs => ⟨s.setBg (some (.lookup r g b)), exec_cmd_of_preemptive hb hc r g b, ?_⟩⟩
  rw [microRun_cmd hs hb]
  exact ⟨hb, rfl, rfl, rfl⟩

/-- Settles O37: the common frame, and by granularity what becomes of the background loop and the targets. -/
theorem commandFrame : Obligations.CommandFrame := by
  intro r g b s t h
  obtain ⟨hquant, hact, hcnt, hout, henv, hslow, hinputs⟩ := exec_cmd_frame h
  have hrom : SameRom s t := fun v => (State.memReadGamma_congr (exec_cfg h) v).symm
  refine ⟨hquant, hact, hcnt, hout, henv, hslow, hinputs, hrom, ?_⟩
  obtain ⟨-, ⟨hc, rfl⟩ | ⟨hc, rfl⟩⟩ := exec_cmd_iff.1 h
  · exact ⟨fun _ => rfl, fun hp => nomatch hc.symm.trans hp⟩
  · exact ⟨fun ha => (nomatch hc.symm.trans ha), fun _ => ⟨rfl, rfl⟩⟩

/-- Settles O38: the second message finds the same words in the ROM and writes them over the first. -/
theorem commandIsIdempotent : Obligations.CommandIsIdempotent := by
  intro r g b s hb hc
  have hfirst := exec_cmd_of_atomic hb hc r g b
  have hsecond : exec (.cmd r g b) (applyMessage r g b s) = .next (applyMessage r g b s) := by
    rw [exec_cmd_of_atomic (s := applyMessage r g b s) hb hc, applyMessage_applyMessage]
  refine ⟨applyMessage r g b s, ?_, ?_⟩
  · rw [execAll_cons_of_next hfirst, execAll]
  · rw [execAll_cons_of_next hfirst, execAll_cons_of_next hsecond, execAll]

end Sys2Proof.Proofs

/-! Proofs about the reference environment: the queue, the poll and the Timeout Guard (R170 to R182). -/

namespace Sys2Proof.Machine

open Sys2Proof Sys2Proof.Safety

/-! ## The poll (R172) -/

theorem exec_bgpoll_iff {s t : State} : exec .bgpoll s = .next t ↔
    s.bg = none ∧ (s.cfg.sched = .atomic ∧ t = pollOnce s ∨ s.cfg.sched = .preemptive ∧ t = s.setBg (some .poll)) := by
  cases hb : s.bg <;> cases hc : s.cfg.sched <;> simp [exec, execBgpoll, hb, hc, eq_comm]

theorem exec_bgpoll_of_atomic {s : State} (hb : s.bg = none) (hc : s.cfg.sched = .atomic) :
    exec .bgpoll s = .next (pollOnce s) :=
  exec_bgpoll_iff.2 ⟨hb, .inl ⟨hc, rfl⟩⟩

theorem exec_bgpoll_of_preemptive {s : State} (hb : s.bg = none) (hc : s.cfg.sched = .preemptive) :
    exec .bgpoll s = .next (s.setBg (some .poll)) :=
  exec_bgpoll_iff.2 ⟨hb, .inr ⟨hc, rfl⟩⟩

theorem pollOnce_of_message {s : State} {r g b : Byte} {rest : List Byte} (h : s.q = r :: g :: b :: rest) :
    pollOnce s = applyMessage r g b (takeMessage rest s) := by
  simp only [pollOnce, h]

theorem pollOnce_of_short {s : State} (h : s.q.length < 3) : pollOnce s = s := by
  rcases pollOnce_cases s with ⟨r, g, b, rest, hq, -⟩ | ⟨-, hp⟩
  · simp only [hq, List.length_cons] at h
    omega
  · exact hp

theorem exec_bgpoll_of_short {s : State} (hb : s.bg = none) (h : s.q.length < 3) (hc : s.cfg.sched = .atomic) :
    exec .bgpoll s = .next s := by
  rw [exec_bgpoll_of_atomic hb hc, pollOnce_of_short h]

/-- The micro-step `b0` takes the oldest three bytes and goes on to the lookup, or finds fewer and ends the poll (R63, R172). -/
theorem bgMicro_poll_cases (s : State) :
    (∃ r g b rest, s.q = r :: g :: b :: rest ∧ bgMicro .poll s = (takeMessage rest s).setBg (some (.lookup r g b))) ∨
    (s.q.length < 3 ∧ bgMicro .poll s = s.setBg none) := by
  match hq : s.q with
  | r :: g :: b :: rest => exact .inl ⟨r, g, b, rest, rfl, by simp [bgMicro, hq]⟩
  | [] | [_] | [_, _] => exact .inr ⟨by simp, by simp [bgMicro, hq]⟩

/-- With nothing in progress micro-steps change nothing (R194). -/
theorem microRun_of_idle {s : State} (hs : s.slow = none) (hb : s.bg = none) (n : Nat) : microRun n s = s := by
  induction n with
  | zero => rfl
  | succ n ih =>
    have hstep : microStep s = s := by simp [microStep, hs, hb]
    rw [microRun, hstep, ih]

/-! ## What one step can do to the environment (R34) -/

/-- What a step can do to the queue and the idle timer: leave both; count a waiting queue, below the threshold; append a byte to
a queue with room; or clear the timer over a queue that does not grow (R171, R172, R174, R186). -/
def EnvStep (s t : State) : Prop :=
  (t.q = s.q ∧ t.idleT = s.idleT) ∨
  (s.q ≠ [] ∧ t.q = s.q ∧ t.idleT < s.cfg.timeoutTicks) ∨
  (s.queueFull = false ∧ (∃ x, t.q = s.q ++ [x]) ∧ t.idleT = s.idleT) ∨
  (t.q.length ≤ s.q.length ∧ t.idleT = 0)

theorem EnvStep.of_same {s t : State} (hq : t.q = s.q) (hi : t.idleT = s.idleT) : EnvStep s t := .inl ⟨hq, hi⟩

theorem EnvStep.of_cleared {s t : State} (hq : t.q.length ≤ s.q.length) (hi : t.idleT = 0) : EnvStep s t :=
  .inr (.inr (.inr ⟨hq, hi⟩))

theorem EnvStep.congr {s t u : State} (h : EnvStep s t) (hq : u.q = t.q) (hi : u.idleT = t.idleT) : EnvStep s u := by
  simpa only [EnvStep, hq, hi] using h

theorem guardStep_envStep (s : State) : EnvStep s (guardStep s) := by
  rcases guardStep_env s with ⟨-, hq, hi, -⟩ | ⟨hne, hlt, hq, hi, -⟩ | ⟨-, -, hq, hi, -⟩
  · exact .of_cleared (by rw [hq]) hi
  · exact .inr (.inl ⟨fun h => hne (by simp [State.qlen, h]), hq, hi ▸ hlt⟩)
  · exact .of_cleared (by simp [hq]) hi

theorem slowTick_envStep (s : State) : EnvStep s (slowTick s) := by
  obtain ⟨hq, hi, -⟩ := slowTick_env s
  exact (guardStep_envStep s).congr hq hi

theorem takeMessage_envStep {s : State} {r g b : Byte} {rest : List Byte} (h : s.q = r :: g :: b :: rest) :
    EnvStep s (takeMessage rest s) := by
  have hlen : rest.length ≤ s.q.length := by
    simp only [h, List.length_cons]
    omega
  exact .of_cleared hlen rfl

theorem pollOnce_envStep (s : State) : EnvStep s (pollOnce s) := by
  rcases pollOnce_cases s with ⟨r, g, b, rest, hq, hp⟩ | ⟨-, hp⟩ <;> rw [hp]
  · exact (takeMessage_envStep hq).congr rfl rfl
  · exact .of_same rfl rfl

theorem exec_envStep {i : Instr} {s t : State} (h : exec i s = .next t) : EnvStep s t := by
  rcases exec_next_cases h with
    ⟨-, rfl⟩ | ⟨-, -, -, rfl⟩ | ⟨-, -, -, rfl⟩ | ⟨r, g, b, -, -, -, rfl⟩ | ⟨r, g, b, -, -, -, rfl⟩ | ⟨x, -, hroom, rfl⟩ |
    ⟨-, -, -, rfl⟩ | ⟨-, -, -, rfl⟩ | ⟨-, rfl⟩
  · obtain ⟨-, -, -, hq, hidle, -⟩ := fastTick_frame s
    exact .of_same hq hidle
  · exact slowTick_envStep s
  · exact .of_same rfl rfl
  · exact .of_same rfl rfl
  · exact .of_same rfl rfl
  · exact .inr (.inr (.inl ⟨hroom, ⟨x, rfl⟩, rfl⟩))
  · exact pollOnce_envStep s
  · exact .of_same rfl rfl
  · exact .of_cleared (Nat.zero_le _) rfl

theorem slowMicro_envStep (p : SlowPos) (s : State) : EnvStep s (slowMicro p s) := by
  cases p with
  | clear u => cases u <;> exact .of_same rfl rfl
  | guard => exact (guardStep_envStep s).congr rfl rfl
  | _ => exact .of_same rfl rfl

theorem bgMicro_envStep (p : BgPos) (s : State) : EnvStep s (bgMicro p s) := by
  cases p with
  | poll =>
    rcases bgMicro_poll_cases s with ⟨r, g, b, rest, hq, hp⟩ | ⟨-, hp⟩ <;> rw [hp]
    · exact (takeMessage_envStep hq).congr rfl rfl
    · exact .of_same rfl rfl
  | lookup r g b => exact .of_same rfl rfl
  | store ch v => exact .of_same rfl rfl

theorem microStep_envStep (s : State) : EnvStep s (microStep s) := by
  rcases microStep_cases s with ⟨p, -, hm⟩ | ⟨p, -, -, hm⟩ | ⟨-, -, hm⟩ <;> rw [hm]
  · exact slowMicro_envStep p s
  · exact bgMicro_envStep p s
  · exact .of_same rfl rfl

/-- Every step, an event's or a micro-step's: taking the event or counting its gap leaves the environment alone. -/
theorem step_envStep {s t : State} (h : step s = .next t) : EnvStep s t := by
  rcases step_next_cases h with ⟨i, rest, -, -, he⟩ | ⟨-, rfl⟩
  · exact exec_envStep (s := s.consume rest) he
  · rcases s.proceed_cases with ⟨-, hp⟩ | ⟨-, hp⟩ <;> rw [hp]
    · exact microStep_envStep (s.setGaps (countGap s.gaps))
    · exact .of_same rfl rfl

end Sys2Proof.Machine

namespace Sys2Proof.Safety

open Sys2Proof Sys2Proof.Machine

/-! ## The environment's invariants (R170, R172, R174) -/

theorem TimerBelow.of_envStep {s t : State} (h : TimerBelow s) (hok : s.cfg.timeoutOk = true) (hcfg : t.cfg = s.cfg)
    (he : EnvStep s t) : TimerBelow t := by
  have hpos : 1 ≤ s.cfg.timeoutTicks := ((timeoutOk_iff _).1 hok).1
  rw [TimerBelow, hcfg]
  rcases he with ⟨-, hi⟩ | ⟨-, -, hlt⟩ | ⟨-, -, hi⟩ | ⟨-, hi⟩
  · exact hi ▸ h
  · exact hlt
  · exact hi ▸ h
  · exact hi ▸ hpos

/-- Only a waiting queue is counted, and a queue with a byte appended is not empty. -/
theorem TimerIdle.of_envStep {s t : State} (h : TimerIdle s) (he : EnvStep s t) : TimerIdle t := by
  intro hempty
  rcases he with ⟨hq, hi⟩ | ⟨hne, hq, -⟩ | ⟨-, ⟨x, hq⟩, -⟩ | ⟨-, hi⟩
  · exact hi.trans (h (hq ▸ hempty))
  · exact absurd (hq ▸ hempty) hne
  · simp [hq] at hempty
  · exact hi

theorem QueueWithin.of_envStep {s t : State} (h : QueueWithin s) (hcfg : t.cfg = s.cfg) (he : EnvStep s t) :
    QueueWithin t := by
  intro n hcap
  rw [hcfg] at hcap
  have hn : s.q.length ≤ n := h n hcap
  rw [State.qlen]
  rcases he with ⟨hq, -⟩ | ⟨-, hq, -⟩ | ⟨hroom, ⟨x, hq⟩, -⟩ | ⟨hle, -⟩
  · exact hq ▸ hn
  · exact hq ▸ hn
  · have hlt : ¬ n ≤ s.q.length := fun hfull => by simp [State.queueFull_iff.2 ⟨n, hcap, hfull⟩] at hroom
    simp only [hq, List.length_append, List.length_singleton]
    omega
  · exact hle.trans hn

end Sys2Proof.Safety

namespace Sys2Proof.Proofs

open Sys2Proof Sys2Proof.Machine Sys2Proof.Safety

/-- Settles O44: the timer is only ever kept, cleared, or counted on below the threshold; at the threshold the guard flushes. -/
theorem stepsKeepTheTimerBelowTheThreshold : Obligations.StepsKeepTheTimerBelowTheThreshold := by
  rintro s t ⟨hok, h⟩ hstep
  have hcfg : t.cfg = s.cfg := step_cfg hstep
  exact ⟨hcfg ▸ hok, h.of_envStep hok hcfg (step_envStep hstep)⟩

/-- Settles O45: what empties a queue clears the timer, and an empty queue is not counted. -/
theorem stepsKeepTheTimerIdle : Obligations.StepsKeepTheTimerIdle := by
  rintro s t ⟨hok, h⟩ hstep
  exact ⟨step_cfg hstep ▸ hok, h.of_envStep (step_envStep hstep)⟩

/-- Settles O46: only an arrival makes the queue longer, and it is accepted by a queue with room only. -/
theorem stepsKeepTheQueueWithinItsCapacity : Obligations.StepsKeepTheQueueWithinItsCapacity :=
  fun _ _ h hstep => h.of_envStep (step_cfg hstep) (step_envStep hstep)

end Sys2Proof.Proofs

namespace Sys2Proof.Machine

open Sys2Proof Sys2Proof.Safety

/-! ## The guard's four transitions (R174, R175) -/

theorem guardTimer_of_growth {s : State} (h : s.lastCnt < s.qlen) : guardTimer s = 0 := if_pos h

/-- Without growth a timer below a threshold in its range counts on without a wrap. -/
theorem guardTimer_of_still {s : State} (hok : s.cfg.timeoutOk = true) (hb : TimerBelow s) (h : s.qlen ≤ s.lastCnt) :
    guardTimer s = s.idleT + 1 := by
  obtain ⟨-, hlt⟩ := (timeoutOk_iff _).1 hok
  rw [TimerBelow] at hb
  rw [guardTimer, if_neg (Nat.not_lt.2 h), nextIdle_eq (by omega)]

theorem guardTimer_le (s : State) : guardTimer s ≤ s.idleT + 1 := by
  rw [guardTimer]
  split
  · exact Nat.zero_le _
  · exact Nat.mod_le _ _

theorem slowTick_of_empty {s : State} (h : s.qlen = 0) :
    (slowTick s).q = s.q ∧ (slowTick s).idleT = 0 ∧ (slowTick s).lastCnt = 0 := by
  obtain ⟨hq, hi, hl⟩ := slowTick_env s
  rw [hq, hi, hl]
  rcases guardStep_env s with ⟨-, henv⟩ | ⟨hne, -⟩ | ⟨hne, -⟩
  · exact henv
  · exact absurd h hne
  · exact absurd h hne

/-- A waiting queue whose timer stays below the threshold waits on, its length remembered. -/
theorem slowTick_of_waiting {s : State} (hne : s.qlen ≠ 0) (hlt : guardTimer s < s.cfg.timeoutTicks) :
    (slowTick s).q = s.q ∧ (slowTick s).idleT = guardTimer s ∧ (slowTick s).lastCnt = s.qlen := by
  obtain ⟨hq, hi, hl⟩ := slowTick_env s
  rw [hq, hi, hl]
  rcases guardStep_env s with ⟨h0, -⟩ | ⟨-, -, henv⟩ | ⟨-, hge, -⟩
  · exact absurd h0 hne
  · exact henv
  · exact absurd hlt (Nat.not_lt.2 hge)

theorem slowTick_of_expired {s : State} (hne : s.qlen ≠ 0) (hge : s.cfg.timeoutTicks ≤ guardTimer s) :
    (slowTick s).q = [] ∧ (slowTick s).idleT = 0 ∧ (slowTick s).lastCnt = 0 := by
  obtain ⟨hq, hi, hl⟩ := slowTick_env s
  rw [hq, hi, hl]
  rcases guardStep_env s with ⟨h0, -⟩ | ⟨-, hlt, -⟩ | ⟨-, -, henv⟩
  · exact absurd h0 hne
  · exact absurd hlt (Nat.not_lt.2 hge)
  · exact henv

end Sys2Proof.Machine

namespace Sys2Proof.Proofs

open Sys2Proof Sys2Proof.Machine Sys2Proof.Safety

/-- Settles O28: growth and one tick without it give the timer's next value, which decides between waiting and the flush. -/
theorem slowTickRunsTheTimeoutGuard : Obligations.SlowTickRunsTheTimeoutGuard := by
  intro s hs hc hok hb
  have htimeout : 1 ≤ s.cfg.timeoutTicks := ((timeoutOk_iff _).1 hok).1
  refine ⟨slowTick s, exec_stick_of_atomic hs hc, slowTick_of_empty, fun hpos hgrow => ?_, fun hpos hstill hlt => ?_,
    fun hpos hstill hge => ?_⟩
  · have htimer := guardTimer_of_growth hgrow
    rw [← htimer]
    exact slowTick_of_waiting hpos.ne' (htimer ▸ htimeout)
  · have htimer := guardTimer_of_still hok hb hstill
    rw [← htimer]
    exact slowTick_of_waiting hpos.ne' (htimer ▸ hlt)
  · exact slowTick_of_expired hpos.ne' (guardTimer_of_still hok hb hstill ▸ hge)

/-- Settles O40: the atomic poll is the dequeue and the command; the micro-steps end in it within the five, and a micro-step after
the end changes nothing. -/
theorem pollAppliesTheOldestThreeBytes : Obligations.PollAppliesTheOldestThreeBytes := by
  intro r g b rest s hb hq
  have hpoll : pollOnce s =
      { s with q := rest, idleT := 0, ti := ⟨s.memReadGamma r, s.memReadGamma g, s.memReadGamma b⟩ } :=
    pollOnce_of_message hq
  rw [← hpoll]
  refine ⟨exec_bgpoll_of_atomic hb, fun hc hs => ⟨s.setBg (some .poll), exec_bgpoll_of_preemptive hb hc, ?_⟩⟩
  obtain ⟨n, hn, hrun⟩ := microRun_poll hs hb
  obtain ⟨-, -, -, -, -, -, -, hslow, hbg, -⟩ := pollOnce_frame s
  rw [← Nat.add_sub_of_le hn]
  exact microRun_trans hrun (microRun_of_idle (hslow.trans hs) (hbg.trans hb) _)

/-- Settles O41: with fewer than three bytes both the whole poll and the micro-step `b0` take nothing. -/
theorem pollWithAPartialMessageDoesNothing : Obligations.PollWithAPartialMessageDoesNothing := by
  intro s hb hshort
  refine ⟨exec_bgpoll_of_short hb hshort,
    fun hc hs => ⟨s.setBg (some .poll), exec_bgpoll_of_preemptive hb hc, ?_⟩⟩
  rw [microRun_bg hs]
  rcases bgMicro_poll_cases (s.setBg (some .poll)) with ⟨r, g, b, rest, hq, -⟩ | ⟨-, hend⟩
  · rw [State.setBg_q] at hq
    simp only [hq, List.length_cons] at hshort
    omega
  · rw [hend]
    exact State.setBg_eq_self hb

end Sys2Proof.Proofs

namespace Sys2Proof.Machine

open Sys2Proof Sys2Proof.Safety

/-! ## The arrival of a byte (R171) -/

theorem exec_enq_of_room {s : State} (h : ∀ n, s.cfg.qcap = some n → s.q.length < n) (x : Byte) :
    exec (.enq x) s = .next (s.appendByte x) := by
  have hroom : s.queueFull = false := by
    rw [Bool.eq_false_iff, Ne, State.queueFull_iff]
    rintro ⟨n, hcap, hfull⟩
    exact absurd (h n hcap) (Nat.not_lt.2 hfull)
  simp [exec, execEnq, hroom]

end Sys2Proof.Machine

namespace Sys2Proof.Proofs

open Sys2Proof Sys2Proof.Machine Sys2Proof.Safety

/-- Settles O39: a queue with room below its capacity, if it has one, is not full. -/
theorem enqueueAppendsTheByte : Obligations.EnqueueAppendsTheByte :=
  fun x _ h => exec_enq_of_room h x

end Sys2Proof.Proofs

namespace Sys2Proof.Machine

open Sys2Proof Sys2Proof.Safety

/-! ## Runs of slow ticks (R175, R176) -/

theorem execAll_append_of_next {is : List Instr} {s t : State} (h : execAll is s = .next t) (js : List Instr) :
    execAll (is ++ js) s = execAll js t := by
  induction is generalizing s with
  | nil =>
    obtain rfl : s = t := by simpa [execAll] using h
    rfl
  | cons i is ih =>
    cases he : exec i s with
    | next u =>
      rw [execAll_cons_of_next he] at h
      rw [List.cons_append, execAll_cons_of_next he, ih h]
    | fault f => cases f
    | refused r => simp [execAll, he] at h

/-- What a run of slow ticks leaves alone, of what a message after it needs (R154). -/
theorem iterate_slowTick_frame (n : Nat) (s : State) :
    (slowTick^[n] s).ti = s.ti ∧ (slowTick^[n] s).slow = s.slow ∧ (slowTick^[n] s).bg = s.bg ∧
    (slowTick^[n] s).cfg = s.cfg := by
  induction n with
  | zero => exact ⟨rfl, rfl, rfl, rfl⟩
  | succ n ih =>
    rw [Function.iterate_succ_apply']
    simp [slowTick_frame, ih]

/-- With no slow tick suspended a run of slow ticks is the tick iterated. -/
theorem execAll_replicate_stick {s : State} (hs : s.slow = none) (hc : s.cfg.sched = .atomic) (n : Nat) :
    execAll (List.replicate n .stick) s = .next (slowTick^[n] s) := by
  induction n generalizing s with
  | zero => rfl
  | succ n ih =>
    obtain ⟨-, -, -, -, hslow, -, hcfg, -⟩ := slowTick_frame s
    rw [List.replicate_succ, execAll_cons_of_next (exec_stick_of_atomic hs hc), ih (hslow.trans hs) (hcfg ▸ hc),
      Function.iterate_succ_apply]

/-- Bytes wait through slow ticks that cannot carry the timer to the threshold (R175). -/
theorem iterate_slowTick_waiting {s : State} {n : Nat} (hne : s.q ≠ []) (hlt : s.idleT + n < s.cfg.timeoutTicks) :
    (slowTick^[n] s).q = s.q ∧ (slowTick^[n] s).idleT ≤ s.idleT + n := by
  induction n with
  | zero => exact ⟨rfl, le_rfl⟩
  | succ n ih =>
    obtain ⟨hq, hi⟩ := ih (by omega)
    obtain ⟨-, -, -, hcfg⟩ := iterate_slowTick_frame n s
    have hlen : (slowTick^[n] s).qlen ≠ 0 := by rwa [State.qlen, hq, Ne, List.length_eq_zero_iff]
    have htimer := guardTimer_le (slowTick^[n] s)
    obtain ⟨hq', hi', -⟩ := slowTick_of_waiting hlen (by rw [hcfg]; omega)
    rw [Function.iterate_succ_apply', hq', hi']
    exact ⟨hq, by omega⟩

/-- The queue is empty, or the guard has seen it without growth through `k` slow ticks and not flushed it (R174). -/
def Stalled (k : Nat) (s : State) : Prop :=
  s.q = [] ∨ (s.lastCnt = s.qlen ∧ k ≤ s.idleT ∧ s.idleT < s.cfg.timeoutTicks)

theorem stalled_slowTick {k : Nat} {s : State} (hk : k ≤ guardTimer s) : Stalled k (slowTick s) := by
  by_cases hempty : s.qlen = 0
  · obtain ⟨hq, -⟩ := slowTick_of_empty hempty
    exact .inl (hq.trans (List.length_eq_zero_iff.1 hempty))
  by_cases hlt : guardTimer s < s.cfg.timeoutTicks
  · obtain ⟨-, -, -, -, -, -, hcfg, -⟩ := slowTick_frame s
    obtain ⟨hq, hi, hl⟩ := slowTick_of_waiting hempty hlt
    exact .inr ⟨by rw [hl, State.qlen, State.qlen, hq], hi ▸ hk, by rwa [hi, hcfg]⟩
  · obtain ⟨hq, -⟩ := slowTick_of_expired hempty (Nat.not_lt.1 hlt)
    exact .inl hq

/-- One more slow tick without growth counts one more, or flushes. -/
theorem Stalled.succ {k : Nat} {s : State} (hok : s.cfg.timeoutOk = true) (h : Stalled k s) :
    Stalled (k + 1) (slowTick s) := by
  rcases h with hempty | ⟨hstill, hk, hb⟩
  · have hlen : s.qlen = 0 := by rw [State.qlen, hempty, List.length_nil]
    obtain ⟨hq, -⟩ := slowTick_of_empty hlen
    exact .inl (hq.trans hempty)
  · exact stalled_slowTick (by rw [guardTimer_of_still hok hb hstill.ge]; omega)

theorem Stalled.iterate_slowTick {s : State} (hok : s.cfg.timeoutOk = true) (h : Stalled 0 s) (n : Nat) :
    Stalled n (slowTick^[n] s) := by
  induction n with
  | zero => exact h
  | succ n ih =>
    obtain ⟨-, -, -, hcfg⟩ := iterate_slowTick_frame n s
    rw [Function.iterate_succ_apply']
    exact ih.succ (hcfg ▸ hok)

theorem Stalled.q_eq_nil {k : Nat} {s : State} (h : Stalled k s) (hk : s.cfg.timeoutTicks ≤ k) : s.q = [] := by
  rcases h with hempty | ⟨-, hle, hlt⟩
  · exact hempty
  · omega

/-- Through `TIMEOUT_TICKS + 1` slow ticks without an arrival every queue is discarded: the first may still see growth, and
each of the others counts (R176). -/
theorem iterate_slowTick_discards {s : State} (hok : s.cfg.timeoutOk = true) :
    (slowTick^[s.cfg.timeoutTicks + 1] s).q = [] := by
  obtain ⟨-, -, -, -, -, -, hcfg, -⟩ := slowTick_frame s
  obtain ⟨-, -, -, hcfg'⟩ := iterate_slowTick_frame s.cfg.timeoutTicks (slowTick s)
  have hstalled : Stalled 0 (slowTick s) := stalled_slowTick (Nat.zero_le _)
  rw [Function.iterate_succ_apply]
  exact (hstalled.iterate_slowTick (hcfg ▸ hok) _).q_eq_nil (by rw [hcfg', hcfg])

/-! ## Bursts of bytes and polls (R181, R182) -/

/-- A queue of a well-formed configuration has room for a whole message (R10). -/
theorem exec_enq_of_wf {s : State} (hwf : s.cfg.wf = true) (h : s.q.length < 3) (x : Byte) :
    exec (.enq x) s = .next (s.appendByte x) := by
  obtain ⟨-, hcap, -⟩ := (configWf_iff _).1 hwf
  exact exec_enq_of_room (fun n hn => h.trans_le (hcap n hn)) x

theorem exec_bgpoll_of_message {s : State} {r g b : Byte} {rest : List Byte} (hb : s.bg = none)
    (hc : s.cfg.sched = .atomic) (hq : s.q = r :: g :: b :: rest) :
    exec .bgpoll s = .next (applyMessage r g b (takeMessage rest s)) := by
  rw [exec_bgpoll_of_atomic hb hc, pollOnce_of_message hq]

section
variable {s : State} (hb : s.bg = none) (hc : s.cfg.sched = .atomic) (hwf : s.cfg.wf = true)
include hb hc hwf

/-- A byte that arrives at an empty queue waits, polled or not. -/
theorem execAll_firstByte (hq : s.q = []) (a : Byte) :
    execAll [.enq a, .bgpoll] s = .next (s.appendByte a) := by
  have henq : exec (.enq a) s = .next (s.appendByte a) := exec_enq_of_wf hwf (by simp [hq]) a
  have hpoll : exec .bgpoll (s.appendByte a) = .next (s.appendByte a) :=
    exec_bgpoll_of_short hb (by simp [State.appendByte, hq]) hc
  rw [execAll_cons_of_next henq, execAll_cons_of_next hpoll, execAll]

/-- The other two bytes of a message are appended, polls between or not. -/
theorem execAll_otherBytes {a : Byte} (hq : s.q = [a]) (b c : Byte) (is : List Instr) :
    execAll ([.bgpoll, .enq b, .bgpoll, .enq c] ++ is) s = execAll is ((s.appendByte b).appendByte c) := by
  have hlen : s.q.length = 1 := by rw [hq, List.length_singleton]
  have hlen' : (s.appendByte b).q.length = 2 := by simp [State.appendByte, hlen]
  have hpoll : exec .bgpoll s = .next s := exec_bgpoll_of_short hb (by omega) hc
  have henq : exec (.enq b) s = .next (s.appendByte b) := exec_enq_of_wf hwf (by omega) b
  have hpoll' : exec .bgpoll (s.appendByte b) = .next (s.appendByte b) := exec_bgpoll_of_short hb (by omega) hc
  have henq' : exec (.enq c) (s.appendByte b) = .next ((s.appendByte b).appendByte c) :=
    exec_enq_of_wf (s := s.appendByte b) hwf (by omega) c
  refine execAll_append_of_next ?_ is
  rw [execAll_cons_of_next hpoll, execAll_cons_of_next henq, execAll_cons_of_next hpoll', execAll_cons_of_next henq',
    execAll]

/-- A whole message that arrives at an empty queue and is polled is applied, and nothing of it stays. -/
theorem execAll_message (hq : s.q = []) (x y z : Byte) :
    ∃ t, execAll [.enq x, .enq y, .enq z, .bgpoll] s = .next t ∧ t.q = [] ∧ t.ti = s.lookupMessage x y z := by
  have hx : exec (.enq x) s = .next (s.setQ [x]) := by
    rw [exec_enq_of_wf hwf (by simp [hq]), State.appendByte, hq]
    rfl
  have hy : exec (.enq y) (s.setQ [x]) = .next (s.setQ [x, y]) :=
    exec_enq_of_wf (s := s.setQ [x]) hwf (by simp) y
  have hz : exec (.enq z) (s.setQ [x, y]) = .next (s.setQ [x, y, z]) :=
    exec_enq_of_wf (s := s.setQ [x, y]) hwf (by simp) z
  have hpoll := exec_bgpoll_of_message (s := s.setQ [x, y, z]) hb hc rfl
  refine ⟨applyMessage x y z (takeMessage [] (s.setQ [x, y, z])), ?_, rfl, rfl⟩
  rw [execAll_cons_of_next hx, execAll_cons_of_next hy, execAll_cons_of_next hz, execAll_cons_of_next hpoll, execAll]

end

end Sys2Proof.Machine

namespace Sys2Proof.Proofs

open Sys2Proof Sys2Proof.Machine Sys2Proof.Safety

/-- Settles O42: the timer starts at 0 and gains at most 1 in each slow tick, so the first byte is there when the others come. -/
theorem bytesInTwoBurstsMakeOneMessage : Obligations.BytesInTwoBurstsMakeOneMessage := by
  intro a b c n s hquiet hc hwf hq hidle hn
  obtain ⟨hs, hb⟩ := State.quiet_iff.1 hquiet
  have hqa : (s.appendByte a).q = [a] := by rw [State.appendByte, State.setQ_q, hq, List.nil_append]
  have hrun := (execAll_append_of_next (execAll_firstByte hb hc hwf hq a) (List.replicate n .stick)).trans
    (execAll_replicate_stick (s := s.appendByte a) hs hc n)
  obtain ⟨hti, -, hbg, hcfg⟩ := iterate_slowTick_frame n (s.appendByte a)
  obtain ⟨hwait, -⟩ := iterate_slowTick_waiting (s := s.appendByte a) (n := n) (by simp [hqa])
    (by simpa [State.appendByte, hidle hq] using hn)
  generalize slowTick^[n] (s.appendByte a) = v at hrun hti hbg hcfg hwait
  have hbv : v.bg = none := hbg.trans hb
  have hcv : v.cfg.sched = .atomic := hcfg ▸ hc
  have hqv : v.q = [a] := hwait.trans hqa
  have hqw : ((v.appendByte b).appendByte c).q = [a, b, c] := by simp [State.appendByte, hqv]
  have hbytes := execAll_otherBytes hbv hcv (hcfg ▸ hwf) hqv b c
  have hpoll := exec_bgpoll_of_message (s := (v.appendByte b).appendByte c) hbv hcv hqw
  refine ⟨⟨_, (execAll_append_of_next hrun _).trans (hbytes []), hti, hqw⟩,
    ⟨_, (execAll_append_of_next hrun _).trans ((hbytes [.bgpoll]).trans (execAll_cons_of_next hpoll [])), rfl,
      State.lookupMessage_congr hcfg a b c⟩⟩

/-- Settles O43: the slow ticks empty the queue and leave the configuration, so the fresh message is alone in it. -/
theorem stalledBytesAreNotPrepended : Obligations.StalledBytesAreNotPrepended := by
  intro x y z s hquiet hc hwf _
  obtain ⟨hs, hb⟩ := State.quiet_iff.1 hquiet
  obtain ⟨hok, -⟩ := (configWf_iff _).1 hwf
  obtain ⟨-, -, hbg, hcfg⟩ := iterate_slowTick_frame (s.cfg.timeoutTicks + 1) s
  have hempty := iterate_slowTick_discards hok
  have hticks := execAll_replicate_stick hs hc (s.cfg.timeoutTicks + 1)
  generalize slowTick^[s.cfg.timeoutTicks + 1] s = u at hbg hcfg hempty hticks
  obtain ⟨t, hrun, hq, hti⟩ := execAll_message (hbg.trans hb) (hcfg ▸ hc) (hcfg ▸ hwf) hempty x y z
  exact ⟨u, t, hticks, hempty, hrun, hq, hti.trans (State.lookupMessage_congr hcfg x y z)⟩

end Sys2Proof.Proofs

/-! Proofs about refusals, the priority and the end of operations in progress, and the events of one clock edge (R190 to R206). -/

namespace Sys2Proof.Machine

open Sys2Proof Sys2Proof.Safety

/-! ## Refusals (R171, R198, R203) -/

theorem exec_stick_of_slow {s : State} (h : s.slow.isSome = true) : exec .stick s = .refused .slowOverrun := by
  obtain ⟨p, hp⟩ := Option.isSome_iff_exists.1 h
  simp [exec, execStick, hp]

theorem exec_bgpoll_of_bg {s : State} (h : s.bg.isSome = true) : exec .bgpoll s = .refused .backgroundOverrun := by
  obtain ⟨p, hp⟩ := Option.isSome_iff_exists.1 h
  simp [exec, execBgpoll, hp]

theorem exec_cmd_of_bg {s : State} (h : s.bg.isSome = true) (r g b : Byte) :
    exec (.cmd r g b) s = .refused .backgroundOverrun := by
  obtain ⟨p, hp⟩ := Option.isSome_iff_exists.1 h
  simp [exec, execCmd, hp]

/-- Fewer than the four bytes of a word are a cut word (R82, log 9). -/
theorem decode_of_short {bs : List Byte} (h : bs.length ≤ 3) : decode bs = .error .truncated := by
  match bs with
  | [] | [_] | [_, _] | [_, _, _] => rfl
  | _ :: _ :: _ :: _ :: _ =>
    simp only [List.length_cons] at h
    omega

end Sys2Proof.Machine

namespace Sys2Proof.Proofs

open Sys2Proof Sys2Proof.Machine Sys2Proof.Safety

/-- Settles O59: each operation tests its own agent's slot, or the queue, before anything else. -/
theorem overrunsAndFullQueuesAreRefused : Obligations.OverrunsAndFullQueuesAreRefused := fun _ =>
  ⟨exec_stick_of_slow, fun hb => ⟨exec_bgpoll_of_bg hb, exec_cmd_of_bg hb⟩,
    fun n hcap hlen => exec_enq_of_full (State.queueFull_iff.2 ⟨n, hcap, hlen⟩)⟩

/-- Settles O12: the refusals of an operation and of a step by their inversion lemmas; a cut word does not decode. -/
theorem refusalsAreTheNamedOnes : Obligations.RefusalsAreTheNamedOnes := by
  refine ⟨fun i s r h => ?_, fun _ _ => step_refused_cases, fun _ _ => step_of_decode_error,
    fun s hdue hpos hlen => ?_⟩
  · rcases exec_refused_cases h with hstick | ⟨hcmd, hbusy⟩ | ⟨hpoll, hbusy⟩ | ⟨henq, hfull, hr⟩
    · exact .inl hstick
    · exact .inr (.inl ⟨.inl hcmd, hbusy⟩)
    · exact .inr (.inl ⟨.inr hpoll, hbusy⟩)
    · exact .inr (.inr ⟨henq, State.queueFull_iff.1 hfull, hr⟩)
  · have he : s.takesEvent = true := State.takesEvent_iff.2 ⟨List.ne_nil_of_length_pos hpos, hdue⟩
    exact step_of_decode_error he (decode_of_short hlen)

/-- Settles O54: the micro-step is the slow task's, or with none in progress the background loop's; each by its frame. -/
theorem microStepsFollowPriority : Obligations.MicroStepsFollowPriority := by
  intro s
  obtain ⟨hact, hcnt, hout, hcfg, htrace, hpos, hgaps⟩ := microStep_frame s
  refine ⟨fun hslow => ?_, fun hslow => ?_, hact, hcnt, hout, hcfg.symm, htrace.symm, hpos.symm, hgaps.symm⟩
  · obtain ⟨p, hp⟩ := Option.isSome_iff_exists.1 hslow
    obtain ⟨hti, -, -, -, hbg, -⟩ := slowMicro_frame p s
    rw [microStep_of_slow hp]
    exact ⟨hbg, hti⟩
  · cases hbg : s.bg with
    | none =>
      have hidle : microStep s = s := microRun_of_idle hslow hbg 1
      rw [hidle]
      exact ⟨⟨rfl, rfl, rfl⟩, rfl, hslow⟩
    | some p =>
      obtain ⟨herr, hpend, -, -, hupd, -, hlast, hkept, -⟩ := bgMicro_frame p s
      rw [microStep_of_bg hslow hbg]
      exact ⟨⟨hupd.symm, hpend.symm, herr.symm⟩, hlast, hkept.trans hslow⟩

end Sys2Proof.Proofs

namespace Sys2Proof

theorem Channel.index_le (ch : Channel) : ch.index ≤ 2 := by
  cases ch <;> decide

end Sys2Proof

namespace Sys2Proof.Machine

open Sys2Proof Sys2Proof.Safety

/-! ## The work left of the operations in progress (R63, R196) -/

/-- How many micro-steps a `STICK` at this position still runs at most: two for the flag, three per channel, one guard. -/
def SlowPos.left : SlowPos → Nat
  | .test => 12
  | .clear _ => 11
  | .read ch => 10 - 3 * ch.index
  | .write ch _ => 9 - 3 * ch.index
  | .update ch _ _ => 8 - 3 * ch.index
  | .guard => 1

/-- How many micro-steps a `CMD` or `BGPOLL` at this position still runs at most: the dequeue, the lookup, one per channel. -/
def BgPos.left : BgPos → Nat
  | .poll => 5
  | .lookup _ _ _ => 4
  | .store ch _ => 3 - ch.index

/-- The micro-steps left of the two operations in progress together. -/
def State.workLeft (s : State) : Nat := s.slow.elim 0 SlowPos.left + s.bg.elim 0 BgPos.left

theorem SlowPos.left_pos (p : SlowPos) : 1 ≤ p.left := by
  cases p with
  | read ch | write ch _ | update ch _ _ =>
    have hch := ch.index_le
    simp only [left]
    omega
  | test | clear _ | guard => simp [left]

theorem SlowPos.left_le (p : SlowPos) : p.left ≤ 12 := by
  cases p with
  | read ch | write ch _ | update ch _ _ => exact (Nat.sub_le _ _).trans (by decide)
  | test | clear _ | guard => simp [left]

theorem BgPos.left_pos (p : BgPos) : 1 ≤ p.left := by
  cases p with
  | store ch _ => exact Nat.le_sub_of_add_le (Nat.add_le_add_left ch.index_le 1)
  | poll | lookup _ _ _ => simp [left]

theorem BgPos.left_le (p : BgPos) : p.left ≤ 5 := by
  cases p with
  | store ch _ => exact (Nat.sub_le _ _).trans (by decide)
  | poll | lookup _ _ _ => simp [left]

theorem State.workLeft_le (s : State) : s.workLeft ≤ 17 := by
  have hslow : s.slow.elim 0 SlowPos.left ≤ 12 := by
    cases s.slow with
    | none => exact Nat.zero_le _
    | some p => exact p.left_le
  have hbg : s.bg.elim 0 BgPos.left ≤ 5 := by
    cases s.bg with
    | none => exact Nat.zero_le _
    | some p => exact p.left_le
  exact Nat.add_le_add hslow hbg

/-- With no micro-step left no operation is in progress. -/
theorem State.busy_of_workLeft {s : State} (h : s.workLeft = 0) : s.busy = false := by
  obtain ⟨hslow, hbg⟩ := Nat.add_eq_zero_iff.1 h
  refine State.busy_eq_false.2 ⟨?_, ?_⟩
  · cases hs : s.slow with
    | none => rfl
    | some p =>
      rw [hs] at hslow
      exact absurd hslow (Nat.ne_of_gt p.left_pos)
  · cases hb : s.bg with
    | none => rfl
    | some p =>
      rw [hb] at hbg
      exact absurd hbg (Nat.ne_of_gt p.left_pos)

theorem slowAfter_left (ch : Channel) : (slowAfter ch).left = 7 - 3 * ch.index := by
  cases ch <;> rfl

theorem bgAfter_left (ch : Channel) (v : PerCh Intensity) : (bgAfter ch v).elim 0 BgPos.left = 2 - ch.index := by
  cases ch <;> rfl

/-- A micro-step of the slow task uses up one of those it had left, or more when it skips the run (R153). -/
theorem slowMicro_left (p : SlowPos) (s : State) : (slowMicro p s).slow.elim 0 SlowPos.left ≤ p.left - 1 := by
  cases p with
  | clear u => cases u <;> simp [slowMicro, SlowPos.left, Channel.index]
  | update ch t out =>
    change (slowAfter ch).left ≤ 8 - 3 * ch.index - 1
    rw [slowAfter_left]
    omega
  | test | read ch | write ch t | guard =>
    simp only [slowMicro, State.setSlow_slow, Option.elim_some, Option.elim_none, SlowPos.left]
    omega

/-- A micro-step of the background loop uses up one of those it had left, or more when a poll finds no message (R172). -/
theorem bgMicro_left (p : BgPos) (s : State) : (bgMicro p s).bg.elim 0 BgPos.left ≤ p.left - 1 := by
  cases p with
  | poll => rcases bgMicro_poll_cases s with ⟨r, g, b, rest, -, h⟩ | ⟨-, h⟩ <;> simp [h, BgPos.left]
  | lookup r g b => simp [bgMicro, BgPos.left, Channel.index]
  | store ch v =>
    change (bgAfter ch v).elim 0 BgPos.left ≤ 3 - ch.index - 1
    rw [bgAfter_left]
    omega

theorem microStep_workLeft (s : State) : (microStep s).workLeft ≤ s.workLeft - 1 := by
  rcases microStep_cases s with ⟨p, hs, h⟩ | ⟨p, hs, hb, h⟩ | ⟨hs, hb, h⟩ <;> rw [h]
  · obtain ⟨-, -, -, -, hbg, -⟩ := slowMicro_frame p s
    have hleft := slowMicro_left p s
    have hpos := p.left_pos
    simp only [State.workLeft, hbg, hs, Option.elim_some]
    omega
  · obtain ⟨-, -, -, -, -, -, -, hslow, -⟩ := bgMicro_frame p s
    have hleft := bgMicro_left p s
    simpa only [State.workLeft, hslow, hs, hb, Option.elim_some, Option.elim_none, Nat.zero_add] using hleft
  · simp [State.workLeft, hs, hb]

theorem microRun_workLeft (n : Nat) (s : State) : (microRun n s).workLeft ≤ s.workLeft - n := by
  induction n generalizing s with
  | zero => exact le_rfl
  | succ n ih =>
    have hstep := microStep_workLeft s
    have hrun := ih (microStep s)
    rw [microRun]
    omega

end Sys2Proof.Machine

namespace Sys2Proof.Proofs

open Sys2Proof Sys2Proof.Machine Sys2Proof.Safety

/-- Settles O57: every micro-step uses up one of the at most 12 + 5 that the two operations have left. -/
theorem operationsInProgressComplete : Obligations.OperationsInProgressComplete := by
  intro s
  have hdone := microRun_workLeft s.workLeft s
  rw [Nat.sub_self] at hdone
  exact ⟨s.workLeft, s.workLeft_le, State.busy_of_workLeft (Nat.le_zero.1 hdone)⟩

end Sys2Proof.Proofs

namespace Sys2Proof.Machine

open Sys2Proof Sys2Proof.Safety

/-! ## The events of one clock edge (R81, R197) -/

/-- What the `FTICK` strobe of an edge does. -/
def edgeTick (p : Ports) (s : State) : State := if p.ftick then fastTick s else s

/-- What the `STICK` strobe of an edge does under `atomic`. -/
def edgeSlow (p : Ports) (s : State) : State := if p.stick then slowTick s else s

/-- What the `CMD` strobe of an edge does under `atomic`. -/
def edgeCommand (p : Ports) (s : State) : State := if p.cmdValid then applyMessage p.cmdR p.cmdG p.cmdB s else s

/-- The wrap is the one count whose successor is 0 (R121). -/
theorem nextCount_eq_zero_iff (c : Byte) : nextCount c = 0#8 ↔ c = 255 := by
  have hlt := c.isLt
  have h255 : (255 : Byte).toNat = 255 := rfl
  rw [← BitVec.toNat_inj, ← BitVec.toNat_inj, nextCount_toNat, BitVec.toNat_ofNat, h255]
  omega

/-- An event that its strobe alone calls for. -/
theorem execAll_strobe {strobe : Bool} {i : Instr} {s t : State} (h : strobe = true → exec i s = .next t) :
    execAll (if strobe then [i] else []) s = .next (if strobe then t else s) := by
  cases strobe with
  | false => rfl
  | true => exact execAll_cons_of_next (h rfl) []

/-- What a fast tick strobe leaves alone, of what the other two strobes see. -/
theorem edgeTick_frame (p : Ports) (s : State) :
    (edgeTick p s).ti = s.ti ∧ (edgeTick p s).err = s.err ∧ (edgeTick p s).pend = s.pend ∧
    (edgeTick p s).slow = s.slow ∧ (edgeTick p s).bg = s.bg ∧ (edgeTick p s).cfg = s.cfg := by
  cases h : p.ftick <;> simp [edgeTick, h, fastTick_frame]

theorem edgeTick_upd (p : Ports) (s : State) :
    (edgeTick p s).upd = if p.ftick = true ∧ s.cnt = 255 then true else s.upd := by
  cases h : p.ftick <;> simp [edgeTick, h, nextCount_eq_zero_iff]

theorem edgeTick_act (p : Ports) (s : State) :
    (edgeTick p s).act = if p.ftick = true ∧ s.cnt = 255 then s.pend else s.act := by
  cases h : p.ftick <;> simp [edgeTick, h, nextCount_eq_zero_iff]

theorem edgeTick_cnt (p : Ports) (s : State) :
    (edgeTick p s).cnt.toNat = if p.ftick then (s.cnt.toNat + 1) % 256 else s.cnt.toNat := by
  cases h : p.ftick <;> simp [edgeTick, h, nextCount_toNat]

/-- What a slow tick strobe leaves alone, of what a command and the generator's clauses see. -/
theorem edgeSlow_frame (p : Ports) (s : State) :
    (edgeSlow p s).ti = s.ti ∧ (edgeSlow p s).act = s.act ∧ (edgeSlow p s).cnt = s.cnt ∧
    (edgeSlow p s).bg = s.bg ∧ (edgeSlow p s).cfg = s.cfg := by
  cases h : p.stick <;> simp [edgeSlow, h, slowTick_frame]

theorem edgeCommand_ti (p : Ports) (s : State) :
    (edgeCommand p s).ti = if p.cmdValid then s.lookupMessage p.cmdR p.cmdG p.cmdB else s.ti := by
  cases h : p.cmdValid <;> simp [edgeCommand, h, applyMessage]

theorem edgeCommand_frame (p : Ports) (s : State) :
    (edgeCommand p s).pend = s.pend ∧ (edgeCommand p s).act = s.act ∧ (edgeCommand p s).cnt = s.cnt ∧
    (edgeCommand p s).upd = s.upd := by
  cases h : p.cmdValid <;> simp [edgeCommand, h, applyMessage]

theorem clockEdge_of_reset {p : Ports} (h : p.rst = true) (s : State) : clockEdge p s = exec .reset s := by
  rw [clockEdge, edgeEvents, if_pos h]
  rfl

/-- Under `atomic`, with no operation in progress that a strobe of the edge would overrun, the strobes have their effects in the
order fast tick, slow tick, command (R197, D9). -/
theorem clockEdge_of_atomic {p : Ports} {s : State} (hrst : p.rst = false) (hslow : p.stick = true → s.slow = none)
    (hbg : p.cmdValid = true → s.bg = none) (hc : s.cfg.sched = .atomic) :
    clockEdge p s = .next (edgeCommand p (edgeSlow p (edgeTick p s))) := by
  obtain ⟨-, -, -, hslowTick, hbgTick, hcfgTick⟩ := edgeTick_frame p s
  obtain ⟨-, -, -, hbgSlow, hcfgSlow⟩ := edgeSlow_frame p (edgeTick p s)
  have htick : execAll (if p.ftick then [.ftick] else []) s = .next (edgeTick p s) :=
    execAll_strobe fun _ => exec_ftick_iff.2 rfl
  have hstick : execAll (if p.stick then [.stick] else []) (edgeTick p s) = .next (edgeSlow p (edgeTick p s)) :=
    execAll_strobe fun h => exec_stick_of_atomic (hslowTick.trans (hslow h)) (hcfgTick ▸ hc)
  have hcmd : execAll (if p.cmdValid then [.cmd p.cmdR p.cmdG p.cmdB] else []) (edgeSlow p (edgeTick p s)) =
      .next (edgeCommand p (edgeSlow p (edgeTick p s))) :=
    execAll_strobe fun h => exec_cmd_of_atomic (hbgSlow.trans (hbgTick.trans (hbg h))) (hcfgSlow ▸ hcfgTick ▸ hc) _ _ _
  rw [clockEdge, edgeEvents, hrst, if_neg Bool.false_ne_true, List.append_assoc, execAll_append_of_next htick,
    execAll_append_of_next hstick, hcmd]

/-- What the edge's command reads is the ROM from before the edge, which no strobe writes (R62). -/
theorem edgeCommand_ti_of_edge (p : Ports) (s : State) : (edgeCommand p (edgeSlow p (edgeTick p s))).ti =
    if p.cmdValid then s.lookupMessage p.cmdR p.cmdG p.cmdB else s.ti := by
  obtain ⟨htiTick, -, -, -, -, hcfgTick⟩ := edgeTick_frame p s
  obtain ⟨htiSlow, -, -, -, hcfgSlow⟩ := edgeSlow_frame p (edgeTick p s)
  rw [edgeCommand_ti, htiSlow, htiTick, State.lookupMessage_congr (hcfgSlow.trans hcfgTick)]

end Sys2Proof.Machine

namespace Sys2Proof.Proofs

open Sys2Proof Sys2Proof.Machine Sys2Proof.Safety

/-- Settles O60: the strobes' effects composed in their order; a fast tick leaves the slow tick its targets and accumulators,
and at a boundary the flag set. -/
theorem sameEdgeEventsFollowPriority : Obligations.SameEdgeEventsFollowPriority := by
  intro p s
  have hti := edgeCommand_ti_of_edge p s
  obtain ⟨htiTick, herrTick, -⟩ := edgeTick_frame p s
  obtain ⟨-, hactSlow, hcntSlow, -⟩ := edgeSlow_frame p (edgeTick p s)
  obtain ⟨hpend, hact, hcnt, hupd⟩ := edgeCommand_frame p (edgeSlow p (edgeTick p s))
  refine ⟨fun hrst => clockEdge_of_reset hrst s, fun hrst hf hs hcmd => ?_,
    fun hrst hstick hslow hbg hc hflag => ?_, fun hrst hstick hbg hc => ?_⟩
  · simp [clockEdge, edgeEvents, hrst, hf, hs, hcmd, execAll]
  · have hset : (edgeTick p s).upd = true := by
      rw [edgeTick_upd]
      rcases hflag with h | h <;> simp [h]
    have hrun : edgeSlow p (edgeTick p s) = slowTick (edgeTick p s) := if_pos hstick
    refine ⟨_, clockEdge_of_atomic hrst (fun _ => hslow) hbg hc, ?_, fun ch => ?_, hti, ?_⟩
    · rw [hupd, hrun, slowTick_upd]
    · obtain ⟨hlane, -⟩ := slowTick_lane_of_set hset ch
      rw [hpend, hrun, hlane, herrTick, htiTick]
    · rw [hact, hactSlow, edgeTick_act]
  · refine ⟨_, clockEdge_of_atomic hrst (fun h => nomatch hstick.symm.trans h) hbg hc, ?_, hti⟩
    rw [hcnt, hcntSlow, edgeTick_cnt]

end Sys2Proof.Proofs

/-! Proofs about missed slow ticks (R231, R240) and the reset (R220). -/

namespace Sys2Proof.Machine

open Sys2Proof Sys2Proof.Safety

/-! ## A whole cycle of fast ticks (R128, R231) -/

/-- No fast tick writes Pending: the transfer at a boundary is a copy (R122, conflict C1). -/
theorem iterate_fastTick_pend (n : Nat) (s : State) : (fastTick^[n] s).pend = s.pend := by
  induction n with
  | zero => rfl
  | succ n ih =>
    obtain ⟨-, -, hpend, -⟩ := fastTick_frame (fastTick^[n] s)
    rw [Function.iterate_succ_apply', hpend, ih]

/-- From one boundary up to the next with fast ticks alone, whatever the flag was: the boundary transfers Pending and sets the
flag, and the 255 ticks after it leave both (R122, R128). -/
theorem iterate_fastTick_cycle {s : State} (h : s.cnt = 255) :
    (fastTick^[256] s).cnt = 255 ∧ (fastTick^[256] s).act = s.pend ∧ (fastTick^[256] s).pend = s.pend ∧
    (fastTick^[256] s).upd = true := by
  have hb : nextCount s.cnt = 0#8 := (nextCount_eq_zero_iff s.cnt).2 h
  have hcnt0 : (fastTick s).cnt.toNat = 0 := by rw [fastTick_cnt, hb]; rfl
  obtain ⟨hcnt, hact, hupd⟩ := iterate_fastTick_inside (s := fastTick s) (k := 255) (by omega)
  refine ⟨BitVec.eq_of_toNat_eq ?_, ?_, iterate_fastTick_pend 256 s, ?_⟩ <;> rw [Function.iterate_succ_apply]
  · rw [hcnt, hcnt0]; rfl
  · rw [hact, fastTick_act, if_pos hb]
  · rw [hupd, fastTick_upd, if_pos hb]

end Sys2Proof.Machine

namespace Sys2Proof.Proofs

open Sys2Proof Sys2Proof.Machine Sys2Proof.Safety

/-- Settles O21: the cycle twice; the first leaves the counter at the wrap and Pending as it was, so the second transfers the
same values. -/
theorem missedUpdateRepeatsTheDutyValues : Obligations.MissedUpdateRepeatsTheDutyValues := by
  intro s hs
  obtain ⟨hcnt, hact, hpend, hupd⟩ := iterate_fastTick_cycle hs
  obtain ⟨hcnt', hact', hpend', hupd'⟩ := iterate_fastTick_cycle hcnt
  exact ⟨_, _, execAll_replicate_ftick 256 s, hcnt, hact, hpend, hupd, execAll_replicate_ftick 256 _,
    hcnt', hact'.trans hpend, hpend'.trans hpend, hupd'⟩

/-- Settles O22: the slow tick leaves the counter and clears the flag; fast ticks that do not wrap leave it clear. -/
theorem slowTickInEveryCycleKeepsOnePending : Obligations.SlowTickInEveryCycleKeepsOnePending := by
  intro s k hs hc hk
  obtain ⟨-, -, hcntSlow, -⟩ := slowTick_frame s
  obtain ⟨hcnt, -, hupd⟩ := iterate_fastTick_inside (s := slowTick s) (k := k) (by rw [hcntSlow]; exact hk)
  have hclear := hupd.trans (slowTick_upd s)
  have hrun := (execAll_cons_of_next (exec_stick_of_atomic hs hc) _).trans (execAll_replicate_ftick k (slowTick s))
  exact ⟨_, hrun, by rw [hcnt, hcntSlow], hclear, fun _ => hclear⟩

/-- Settles O47: the fields of the state that `applyReset_eq` writes out; the ROM is part of the configuration, which stays. -/
theorem resetWritesEveryRegister : Obligations.ResetWritesEveryRegister := by
  intro s
  refine ⟨s.applyReset, exec_reset_iff.2 rfl, ?_⟩
  rw [State.applyReset_eq]
  exact ⟨PerCh.get_all 0, rfl, rfl, rfl, rfl, rfl, rfl, rfl, rfl, rfl, rfl, rfl, ⟨rfl, rfl, rfl, rfl⟩,
    fun v => (State.memReadGamma_congr rfl v).symm⟩

end Sys2Proof.Proofs
